-- ==== Sys2Proof/Word.lean ====
section
/-! DEFINITION. The byte and word types of the SC-440's three boundaries (R184, R185). -/

namespace Sys2Proof

/-- One byte on the order link, the store port or the strike port. -/
abbrev Byte := BitVec 8

/-- A two-byte field, sent most significant byte first (R184). -/
abbrev Word := BitVec 16

/-- A run of bytes, the first at the lowest offset. -/
abbrev Bytes := List Byte

end Sys2Proof
end

