-- ==== Sys2Proof/Syntax.lean ====
section
/-! DEFINITION. The commands the SC-440 takes: one constructor for each row of spec/opcode_table.json.
An ORDER carries the tag and the target of its frame's header and its body's fields in the widths of chapter 11, before any
test: a value out of range or outside an enumeration can be written here and is refused by the order's meaning.
An EVENT carries what arrives with it. -/

namespace Sys2Proof

/-- One copy unit as it stands in a COPY body: a kind byte and a value (section 11.4). -/
structure RawUnit where
  kind : Byte
  value : Word
  deriving DecidableEq, Repr

/-- One entry of a field list: a field number and a value (R184). -/
structure FieldEntry where
  number : Byte
  value : Word
  deriving DecidableEq, Repr

/-- The commands: the 29 orders in the order table's order, then the events. -/
inductive Instr where
  /-- COPY (R65). -/
  | copy (tag target : Byte) (units : List RawUnit)
  /-- CHANNEL_SET (R59). -/
  | channelSet (tag target : Byte) (fields : List FieldEntry)
  /-- COLUMN (R61). -/
  | column (tag target : Byte) (top : BitVec 32)
  /-- CANCEL (R70). -/
  | cancel (tag target : Byte)
  /-- RELEASE (R71). -/
  | release (tag target : Byte)
  /-- CHANNEL_QUERY (R72). -/
  | channelQuery (tag target : Byte)
  /-- FACE_DEFINE (R19). -/
  | faceDefine (tag target face : Byte) (base size : Word)
  /-- FACE_WITHDRAW (R20). -/
  | faceWithdraw (tag target face : Byte)
  /-- MAP_LOCK (R22). -/
  | mapLock (tag target : Byte)
  /-- FACE_QUERY (R23). -/
  | faceQuery (tag target face : Byte)
  /-- MOUNT (R31). -/
  | mount (tag target face : Byte)
  /-- FETCH_SET (R116). -/
  | fetchSet (tag target : Byte) (fields : List FieldEntry)
  /-- STORE_WRITE (R122). -/
  | storeWrite (tag target : Byte) (page offset : Word) (data : Bytes)
  /-- STORE_ERASE (R126). -/
  | storeErase (tag target block : Byte)
  /-- STORE_BLANK (R130). -/
  | storeBlank (tag target : Byte) (first last : Word) (direction : Byte)
  /-- STORE_READ (R131). -/
  | storeRead (tag target : Byte) (page offset length : Word)
  /-- STORE_MODE (R129). -/
  | storeMode (tag target mode limit : Byte)
  /-- STORE_CLEAR (R133). -/
  | storeClear (tag target : Byte)
  /-- STORE_ABORT (R132). -/
  | storeAbort (tag target : Byte)
  /-- STORE_WINDOW (R134); first and last block both 255 mean NONE (R184). -/
  | storeWindow (tag target first last : Byte)
  /-- STORE_QUERY (R135). -/
  | storeQuery (tag target : Byte)
  /-- FILM_CUT (R148). -/
  | filmCut (tag target : Byte)
  /-- EXPOSE_SET (R151). -/
  | exposeSet (tag target : Byte) (fields : List FieldEntry)
  /-- EXPOSE_HOLD (R150). -/
  | exposeHold (tag target : Byte)
  /-- EXPOSE_RESUME (R150, R155). -/
  | exposeResume (tag target : Byte)
  /-- EXPOSE_QUERY (R152). -/
  | exposeQuery (tag target : Byte)
  /-- STATUS (R178). -/
  | status (tag target : Byte)
  /-- RESET (R181). -/
  | reset (tag target : Byte)
  /-- RECORD_CLEAR (R183). -/
  | recordClear (tag target : Byte)
  /-- POWER_ON (R180). -/
  | powerOn
  /-- RESET_LINE_ASSERT (R179). -/
  | resetLineAssert
  /-- RESET_LINE_RELEASE (R179). -/
  | resetLineRelease
  /-- STARTUP_END (R182). -/
  | startupEnd
  /-- HEADER_RECEIVED (R169): the bytes that arrive on the receive pair. -/
  | headerReceived (bytes : Bytes)
  /-- HUNT_CANDIDATE (R170): the bytes that arrive on the receive pair. -/
  | huntCandidate (bytes : Bytes)
  /-- FRAME_RECEIVED (R169): the bytes that arrive on the receive pair. -/
  | frameReceived (bytes : Bytes)
  /-- ATTENTION_PULSE_EXPIRY (R171). -/
  | attentionPulseExpiry
  /-- DISPATCH (R174). -/
  | dispatch
  /-- ANSWER_SENT (R172). -/
  | answerSent
  /-- NOTICE_SENT (R176). -/
  | noticeSent
  /-- ARBITER_CHOICE (R75). -/
  | arbiterChoice
  /-- LINE_DELIVERY (R98). -/
  | lineDelivery
  /-- COMPOSITION_ABANDON (R79). -/
  | compositionAbandon
  /-- MOUNT_LOAD_BEGIN (R32). -/
  | mountLoadBegin
  /-- FETCH_CHOICE (R110). -/
  | fetchChoice
  /-- FETCH_REQUEST_ENTRY (R109). -/
  | fetchRequestEntry
  /-- ROW_OPEN_DONE (R105). -/
  | rowOpenDone
  /-- TRANSFER_COMPLETE (R113). -/
  | transferComplete
  /-- HOLD_DEADLINE_EXPIRY (R106) of a bank. -/
  | holdDeadlineExpiry (bank : Fin 8)
  /-- BANK_CLOSE_DONE (R104) of a bank. -/
  | bankCloseDone (bank : Fin 8)
  /-- PROGRAM_LINE_DONE (R123). -/
  | programLineDone
  /-- ERASE_PAUSED (R127). -/
  | erasePaused
  /-- ERASE_DONE (R126). -/
  | eraseDone
  /-- FILM_ARBITER (R143). -/
  | filmArbiter
  /-- RECORD_SENT (R158). -/
  | recordSent
  /-- UNIT_DONE (R147). -/
  | unitDone
  /-- UNIT_FAULT (R154): the second byte of the unit's FAULT record (R159). -/
  | unitFault (kind : Byte)
  /-- EXPOSURE_TIMEOUT (R153). -/
  | exposureTimeout
  /-- UNKNOWN_RETURN_BYTE (R159): a first byte on the return lane. -/
  | unknownReturnByte (byte : Byte)
  deriving DecidableEq, Repr

end Sys2Proof
end

