-- ==== Sys2Proof/Decode.lean ====
section
/-! DEFINITION. The words of the command table. Its rows give no bits: the part takes frames and port events, not words (log
entry 23). Orders are decoded from frames in Machine/Operands.lean. -/

namespace Sys2Proof

/-- The command a word spells: none, since no row of the table gives bits. -/
def decodeTableWord (_nbits _w : Nat) : Option Instr := none

end Sys2Proof
end

