-- ==== Sys2Proof/Machine/State.lean ====
section
/-! DEFINITION. The state of the SC-440, block by block, as plain data, and its value after a power-on reset.
Positions are fine units, sizes quarter points, spacing settings thousandths of the em (R1). Channels, mount positions, banks,
exposure slots, master buffers and faces are numbered by Fin; pages, blocks, offsets and counts are Nat. -/

namespace Sys2Proof.Machine

/-! ### Settings and copy (chapter 4) -/

/-- A run or paragraph direction (R58, R63). -/
inductive Dir where
  | ltr
  | rtl
  deriving DecidableEq, Repr

/-- A quad (R58, R63, R88); JUSTIFY is the full-line quad only. -/
inductive Quad where
  | leading
  | trailing
  | centre
  | justify
  deriving DecidableEq, Repr

/-- The justify priority (R58, R91). -/
inductive Priority where
  | spacesFirst
  | elongationFirst
  deriving DecidableEq, Repr

/-- The fixed spaces (R14). -/
inductive FixedKind where
  | em
  | en
  | thin
  | figure
  deriving DecidableEq, Repr

/-- The copy units with the values composition reads in them (R63). -/
inductive CopyUnit where
  | char (code : Nat)
  | space
  | brk (hyphen : Bool)
  | fixed (k : FixedKind)
  | dir (d : Dir)
  | face (n : Nat)
  | size (v : Nat)
  | setw (v : Nat)
  | track (v : Int)
  | ligs (on : Bool)
  | endLine
  | endPara (q : Quad)
  deriving DecidableEq, Repr

/-- A unit of a copy buffer with the tag of the COPY order that brought it (R101). -/
structure BufUnit where
  unit : CopyUnit
  tag : Byte
  deriving DecidableEq, Repr

/-- The setting context of a channel (R58). -/
structure Context where
  measure : Nat := 8448
  leading : Nat := 704
  indent : Nat := 0
  paraDir : Dir := .ltr
  wsMin : Nat := 200
  wsOpt : Nat := 250
  wsMax : Nat := 500
  letterLimit : Nat := 30
  elongLimit : Nat := 600
  priority : Priority := .spacesFirst
  face : Nat := 0
  size : Nat := 36
  setw : Nat := 36
  track : Int := 0
  ligs : Bool := true
  fallback : Nat := 0
  hyphen : Nat := 45
  fullQuad : Quad := .justify
  deriving DecidableEq, Repr

/-- The fields CHANNEL_SET writes, in the order of their field numbers 1 to 18 (section 11.4). -/
inductive SetField where
  | measure
  | leading
  | indent
  | paraDir
  | wsMin
  | wsOpt
  | wsMax
  | letterLimit
  | elongLimit
  | priority
  | face
  | size
  | setw
  | track
  | ligs
  | fallback
  | hyphen
  | fullQuad
  deriving DecidableEq, Repr

/-- Why a channel is HELD (R68, R69). -/
inductive HeldReason where
  | face
  | reach
  deriving DecidableEq, Repr

/-- The channel states, HELD with its reason (R57, R66). -/
inductive ChannelState where
  | idle
  | pending
  | composing
  | mountWait
  | held (why : HeldReason)
  deriving DecidableEq, Repr

/-- A set join carry (R45). -/
structure Carry where
  face : Fin 128
  dir : Dir
  deriving DecidableEq, Repr

/-- A setting channel (R57). -/
structure Channel where
  ctx : Context := {}
  runDir : Dir := .ltr
  paraQuad : Quad := .leading
  buffer : List BufUnit := []
  top : Nat := 0
  next : Nat := 0
  lineCounter : BitVec 16 := 0
  consumed : BitVec 32 := 0
  state : ChannelState := .idle
  holdReq : Bool := false
  /-- pending CHANNEL_SET fields, in field-number order, with their clamped values (R60) -/
  pendSet : List (SetField × Word) := []
  /-- a pending COLUMN's column top (R61) -/
  pendCol : Option Nat := none
  carry : Option Carry := none
  deriving DecidableEq, Repr

/-! ### Faces and mounting (chapter 2) -/

/-- Face directory entry states (R18). -/
inductive FaceState where
  | undefined
  | defined
  | withdrawing
  deriving DecidableEq, Repr

/-- A face directory entry (R18). -/
structure FaceEntry where
  state : FaceState := .undefined
  base : Nat := 0
  size : Nat := 0
  deriving DecidableEq, Repr

/-- Failure causes of a mount (R26, R34). -/
inductive MountCause where
  | check
  | format
  | tooLarge
  deriving DecidableEq, Repr

/-- A mount position's state with the face number and failure cause it holds (R26). -/
inductive MountState where
  | empty
  | loading (f : Fin 128)
  | mounted (f : Fin 128)
  | failed (f : Fin 128) (c : MountCause)
  deriving DecidableEq, Repr

/-- A mount position (R26). Its metric memory is held as the pages of the section received so far, each with its number within
the section, in increasing order (R33). -/
structure MountPos where
  state : MountState := .empty
  count : Nat := 0
  memory : List (Nat × Bytes) := []
  deriving DecidableEq, Repr

/-- A mount request (R30). -/
structure MountReq where
  face : Fin 128
  waiters : List (Fin 4)
  byOrder : Bool
  deriving DecidableEq, Repr

/-- The load in progress (R32, R33). -/
structure Load where
  pos : Fin 8
  face : Fin 128
  evicted : Option (Fin 128)
  /-- the section length L, once the header tests have passed -/
  length : Option Nat := none
  /-- how many pages of the section have been requested -/
  issued : Nat := 0
  deriving DecidableEq, Repr

/-- The Face Directory and Mount Unit (section 2.7). -/
structure Fdm where
  dir : Vector FaceEntry 128 := Vector.replicate 128 {}
  lock : Bool := false
  pos : Vector MountPos 8 := Vector.replicate 8 {}
  /-- least recently used first (R26) -/
  recency : List (Fin 8) := [0, 1, 2, 3, 4, 5, 6, 7]
  /-- head first (R30) -/
  requests : List MountReq := []
  load : Option Load := none
  deriving DecidableEq, Repr

/-! ### Lines (chapter 5) -/

/-- The marks of a line (R87, R101). -/
structure Marks where
  overset : Bool := false
  loose : Bool := false
  unfilled : Bool := false
  hyphenated : Bool := false
  forced : Bool := false
  last : Bool := false
  substituted : Bool := false
  missing : Bool := false
  clamped : Bool := false
  marksDropped : Bool := false
  damaged : Bool := false
  clipped : Bool := false
  deriving DecidableEq, Repr

/-- The kinds of placement (R100). -/
inductive PlaceKind where
  | glyph
  | mark
  | space
  | fixed (k : FixedKind)
  | hyphen
  deriving DecidableEq, Repr

/-- The class of a gap (R54). -/
inductive GapClass where
  | elongation
  | letterspace
  deriving DecidableEq, Repr

/-- A placement of a line record (R56, R100). -/
structure Placement where
  kind : PlaceKind
  pos : Option (Fin 8) := none
  glyph : Option Nat := none
  esc : Int := 0
  /-- the whole trailing gap: kern, tracking and justification addition -/
  gap : Int := 0
  /-- the elongation part of the gap -/
  elong : Int := 0
  gapClass : Option GapClass := none
  /-- for a MARK, the index of its base placement -/
  base : Option Nat := none
  xoff : Int := 0
  yoff : Int := 0
  joinsPrev : Bool := false
  joinsNext : Bool := false
  run : Nat := 0
  word : Nat := 0
  dir : Dir := .ltr
  size : Nat := 0
  setw : Nat := 0
  src : BitVec 32 := 0
  /-- absolute x across the film (R97) -/
  x : Int := 0
  /-- absolute x of the extender of an elongation point (R97) -/
  extX : Option Int := none
  deriving DecidableEq, Repr

/-- The header of a line record, less the positions used (R99). -/
structure LineHeader where
  channel : Fin 4
  lineNumber : BitVec 16
  tag : Byte
  baseline : Nat
  indent : Nat
  measure : Nat
  paraDir : Dir
  quad : Quad
  width : Int
  nOpt : Int
  leftOffset : Int
  shortfall : Int
  setw : Nat
  k : Nat
  adjust : Int
  remCount : Nat
  remStep : Int
  e : Nat
  elongAdded : Nat
  g : Nat
  letterAdded : Nat
  marks : Marks
  firstIndex : BitVec 32
  breakIndex : BitVec 32
  placements : Nat
  deriving DecidableEq, Repr

/-- A line record (R99, R100). -/
structure Line where
  header : LineHeader
  /-- the positions the line holds references to, in order of first use -/
  used : List (Fin 8)
  placements : List Placement
  /-- the placement indices of the elements, left to right -/
  visual : List Nat
  deriving DecidableEq, Repr

/-! ### The composition engine (chapter 5) -/

/-- The mount position and face drawn on (R40). -/
structure Drawn where
  pos : Fin 8
  face : Fin 128
  deriving DecidableEq, Repr

/-- The working copy of a channel's running context (R77), with the face drawn on. -/
structure Working where
  face : Nat
  drawn : Drawn
  size : Nat
  setw : Nat
  track : Int
  ligs : Bool
  dir : Dir
  quad : Quad
  deriving DecidableEq, Repr

/-- A unit of the span as the engine has read it: the working context in force after it, the run it stands in, and whether it
ended that run (R40), clamped a value (R7, R8) or called in the fallback face (R38). -/
structure ReadUnit where
  unit : CopyUnit
  tag : Byte
  work : Working
  run : Nat
  endsRun : Bool := false
  clamped : Bool := false
  subst : Bool := false
  deriving DecidableEq, Repr

/-- What stops a composition at a face test (R37, R38): a mount of a face is wanted, or no face can be used. -/
inductive Stop where
  | mount (f : Fin 128)
  | face
  deriving DecidableEq, Repr

/-- The composition record (R74). The placements and marks gathered so far are those of the units read. -/
structure Composition where
  channel : Fin 4
  slot : Fin 16
  /-- the number of units of the span, from the head of the buffer (R77) -/
  spanLen : Nat
  ctx : Context
  carry : Option Carry
  /-- the line's set width (R13) -/
  lineSetw : Nat
  startClamped : Bool
  startSubst : Bool := false
  work : Working
  /-- the run number of the next unit -/
  run : Nat := 0
  /-- the units read, first first -/
  read : List ReadUnit := []
  /-- the positions drawn on, in order of first draw (R78) -/
  used : List (Fin 8) := []
  /-- the line-start face test has been passed; until then the drawn face of `work` has no meaning (R37) -/
  started : Bool := false
  discard : Bool := false
  deriving DecidableEq, Repr

/-- The Composition Engine (R74): COMPOSING while it holds a composition record, IDLE otherwise. -/
structure Ce where
  lastServed : Fin 4 := 3
  comp : Option Composition := none
  deriving DecidableEq, Repr

/-! ### The store and the fetch scheduler (chapter 6) -/

/-- The blocks that make fetches (R108). -/
inductive Requester where
  | mount
  | strike
  | sequencer
  | link
  deriving DecidableEq, Repr

/-- A fetch request (R108); `ref` says which of its requester's requests it is: the page of the section for MOUNT, the master
buffer for STRIKE, the STORE_READ's tag for LINK. -/
structure FetchReq where
  requester : Requester
  page : Nat
  offset : Nat
  length : Nat
  ref : Nat := 0
  bypass : Nat := 0
  deriving DecidableEq, Repr

/-- The data path (R105): free, with a row open awaited for the chosen request, or with its transfer in progress. `wanted` is
clear once the requester has withdrawn it (R114). -/
inductive Path where
  | free
  | opening (r : FetchReq) (wanted : Bool)
  | moving (r : FetchReq) (wanted : Bool)
  deriving DecidableEq, Repr

/-- A bank table entry (R104): an OPEN entry holds its hold deadline, a tick of the timebase, while its hold runs. -/
inductive Bank where
  | closed
  | opened (row : Nat) (deadline : Option Nat)
  | busy
  deriving DecidableEq, Repr

/-- The Fetch Scheduler (R115). -/
structure Fs where
  /-- oldest first (R109) -/
  queue : List FetchReq := []
  /-- requests held for want of space, first held first (R109) -/
  held : List FetchReq := []
  path : Path := .free
  banks : Vector Bank 8 := Vector.replicate 8 .closed
  /-- banks whose close has been sent and not reported (R103, R104) -/
  closing : Vector Bool 8 := Vector.replicate 8 false
  bypassLimit : Nat := 4
  hold : Nat := 3
  deriving DecidableEq, Repr

/-! ### The store sequencer (chapter 7) -/

/-- The states of the sequencer (R118). -/
inductive SqState where
  | idle
  | programming
  | erasing
  | eraseSuspended
  | checking
  | locked
  deriving DecidableEq, Repr

/-- The set of error kinds (R119). -/
structure ErrorKinds where
  range : Bool := false
  protect : Bool := false
  inUse : Bool := false
  programFail : Bool := false
  deriving DecidableEq, Repr

/-- A line of the program buffer (R123). -/
structure ProgLine where
  page : Nat
  offset : Nat
  data : Bytes
  deriving DecidableEq, Repr

/-- Where the line in progress stands (R123, R107): in its pre-program read, with its bank claimed and its program waiting for a
transfer to complete, or with its program sent. -/
inductive LineStep where
  | read
  | claimed
  | sent
  deriving DecidableEq, Repr

/-- The suspend mode (R129). -/
inductive SuspendMode where
  | fetchFirst
  | eraseFirst
  deriving DecidableEq, Repr

/-- The check position (R119, R130). -/
structure BlankCheck where
  first : Nat
  last : Nat
  down : Bool
  next : Nat
  deriving DecidableEq, Repr

/-- The Store Sequencer (R119). -/
structure Sq where
  state : SqState := .idle
  kinds : ErrorKinds := {}
  lockPending : Bool := false
  /-- the kind bytes of the two most recently accepted orders -/
  latest : Option Byte := none
  previous : Option Byte := none
  /-- oldest first, at most two (R123) -/
  buffer : List ProgLine := []
  step : LineStep := .read
  programmed : Nat := 0
  discarded : Nat := 0
  failed : Option (Nat × Nat) := none
  eraseBlock : Option Nat := none
  /-- the erase in progress has been sent to the store (R126) -/
  eraseSent : Bool := false
  suspendCount : Nat := 0
  eraseLimit : Nat := 4
  suspendAwaited : Bool := false
  interrupted : Option Nat := none
  check : Option BlankCheck := none
  mode : SuspendMode := .fetchFirst
  limit : Nat := 4
  window : Option (Nat × Nat) := some (0, 63)
  deriving DecidableEq, Repr

/-! ### The exposure controller (chapter 8) -/

/-- The states of the EX (R141). -/
inductive ExState where
  | unregistered
  | idle
  | calibrating
  | exposing
  | cutting
  | held
  | faulted
  deriving DecidableEq, Repr

/-- Causes of a fault record (R155). -/
inductive FaultCause where
  | timeout
  | lamp
  | transport
  | filmOut
  deriving DecidableEq, Repr

/-- The operation a fault ended (R155). -/
inductive FaultOp where
  | none
  | line (ch : Fin 4) (number : BitVec 16)
  | calibrate
  | cut
  deriving DecidableEq, Repr

/-- The fault record (R155). -/
structure FaultRecord where
  cause : Option FaultCause := .none
  count : Nat := 0
  op : FaultOp := .none
  deriving DecidableEq, Repr

/-- A QUEUED slot (R138). -/
structure QueuedLine where
  slot : Fin 16
  line : Line
  bypass : Nat := 0
  deriving DecidableEq, Repr

/-- The EXPOSING slot (R138, R146). -/
structure ExposingLine where
  slot : Fin 16
  line : Line
  travel : Int
  /-- the bypass count the line left the queue with -/
  bypass : Nat := 0
  deriving DecidableEq, Repr

/-- The line chosen while a calibration is made ahead of it (R145): its slot, and whether a CANCEL has removed the line since. -/
structure ChosenLine where
  slot : Fin 16
  removed : Bool := false
  deriving DecidableEq, Repr

/-- The Exposure Controller (R140, R141, R144, R151, R155). The RESERVED slot is the composition record's (R76), and every slot
that is neither RESERVED, QUEUED nor EXPOSING is FREE. -/
structure Ex where
  state : ExState := .unregistered
  holdReq : Bool := false
  /-- the chosen line while a calibration is made ahead of it (R145) -/
  chosen : Option ChosenLine := none
  cutPending : Bool := false
  registered : Bool := false
  /-- F (R140) -/
  film : Nat := 0
  /-- H (R140) -/
  high : Nat := 0
  pageCount : BitVec 16 := 0
  /-- R (R151) -/
  reach : Nat := 27648
  /-- C (R151) -/
  interval : Nat := 256
  /-- D (R151) -/
  deferLimit : Nat := 4
  /-- L (R151) -/
  bypassLimit : Nat := 2
  /-- in steps of 10 ms (R151) -/
  timeout : Nat := 200
  cutMargin : Nat := 1152
  counter : Nat := 0
  deferral : Nat := 0
  lastChannel : Option (Fin 4) := none
  /-- the tick at which the exposure timeout expires, while it runs (R153) -/
  timer : Option Nat := none
  fault : FaultRecord := {}
  /-- QUEUED lines in composition order, O first (R139) -/
  queued : List QueuedLine := []
  exposing : Option ExposingLine := none
  deriving DecidableEq, Repr

/-! ### The strike assembler and the strike port (chapter 9) -/

/-- The records of the outbound lane (R158, section 11.8). -/
inductive OutRecord where
  | lineBegin (tag : Byte) (travel : Int)
  | strike (x dy : Int) (size setw : Nat) (master : Bytes)
  | extend (x width : Int) (size : Nat) (master : Bytes)
  | lineEnd
  | calibrate
  | cut (advance : Nat)
  deriving DecidableEq, Repr

/-- An entry of the strike list (R161): a STRIKE, or an EXTEND, of a glyph of the face mounted at `pos`. -/
structure StrikeRec where
  extend : Bool
  x : Int
  dy : Int := 0
  width : Int := 0
  size : Nat
  setw : Nat := 0
  pos : Fin 8
  glyph : Nat
  deriving DecidableEq, Repr

/-- A master buffer (R160): FETCHING and FILLED name the record of the strike list they are assigned to. `again` says that the
fetch is of the missing glyph's master in place of a failed one, and `omitted` that the record is to be passed over (R163). -/
inductive MasterBuf where
  | free
  | fetching (rec : Nat) (again : Bool)
  | filled (rec : Nat) (data : Bytes) (omitted : Bool)
  deriving DecidableEq, Repr

/-- What the SA holds while ASSEMBLING, besides its buffers (R160). -/
structure Assembly where
  list : List StrikeRec
  fetchPoint : Nat := 0
  sendPoint : Nat := 0
  /-- buffers whose replacement fetch (R163) is still to be requested, because the SA holds a request (R109) -/
  owed : List (Fin 8) := []
  deriving DecidableEq, Repr

/-- The Strike Assembler and the two lanes of the strike port (R157, R160): IDLE while it holds no assembly. -/
structure Sa where
  assembly : Option Assembly := none
  buffers : Vector MasterBuf 8 := Vector.replicate 8 .free
  /-- the outbound lane: the record being sent, until the unit acknowledges its last byte, and any that wait behind it -/
  lane : List OutRecord := []
  /-- how many bytes of the lane's first record the unit has acknowledged; the byte at that place is presented, its strobe raised,
  and awaits its acknowledgement (R157; `Sa.presented`, `Sa.strobeHigh`) -/
  acked : Nat := 0
  /-- a FAULT's first byte has been taken and its second is awaited on the return lane (R157, R159) -/
  returnPartial : Bool := false
  deriving DecidableEq, Repr

/-! ### The order link (chapter 10) -/

/-- What a RESET_DONE says of a store operation that a reset interrupted (R180). -/
inductive Interrupted where
  | none
  | program (page : Nat)
  | erase (block : Nat)
  deriving DecidableEq, Repr

/-- The reset record (R180). -/
structure ResetRecord where
  power : Bool := true
  line : Bool := false
  order : Bool := false
  count : Nat := 0
  interrupted : Interrupted := .none
  deriving DecidableEq, Repr

/-- The reset and start-up phase (R179, R182). -/
inductive Phase where
  | inReset
  | startup
  | running
  deriving DecidableEq, Repr

/-- A received frame waiting for the dispatcher, and whether its body check matched (R173). -/
structure Frame where
  kind : Byte
  tag : Byte
  target : Byte
  body : Bytes
  checkOk : Bool
  deriving DecidableEq, Repr

/-- The receiver (R169): the header bytes gathered, the header and body bytes gathered, or the bytes still to be searched. -/
inductive Receiver where
  | waiting
  | header (got : Bytes)
  | body (kind tag target : Byte) (length : Nat) (got : Bytes)
  | hunting (buf : Bytes)
  deriving DecidableEq, Repr

/-- The header fields of the order in the dispatcher's hand, which its answer repeats (R168, R186). -/
structure Head where
  kind : Byte
  tag : Byte
  target : Byte
  deriving DecidableEq, Repr

/-- A return: an answer or a notice as it is sent (R168). -/
structure Return where
  kind : Byte
  tag : Byte
  target : Byte
  body : Bytes
  deriving DecidableEq, Repr

/-- Reasons of a LINE_LOST (R139). -/
inductive LossReason where
  | reach
  | fault
  | timeout
  deriving DecidableEq, Repr

/-- What a STORE_DONE reports of its operation (R137). -/
inductive StoreOp where
  | none
  | program (programmed discarded : Nat) (failed : Option (Nat × Nat))
  | erase (block suspends : Nat)
  | blank (found : Option (Nat × Nat × Byte))
  deriving DecidableEq, Repr

/-- Outcomes of a STORE_DONE (R137). -/
inductive StoreOutcome where
  | done
  | locked
  | aborted
  deriving DecidableEq, Repr

/-- The notices (R176, sections 11.5 and 11.6). -/
inductive Notice where
  | lineSet (h : LineHeader)
  | lineExposed (h : LineHeader) (travel : Int) (page : BitVec 16)
  | lineLost (h : LineHeader) (why : LossReason)
  | exposeFault (cause : FaultCause) (op : FaultOp) (registered : Bool)
  | channelHeld (ch : Fin 4) (why : HeldReason) (consumed : BitVec 32) (counter : BitVec 16)
  | mountDone (face : Fin 128) (pos : Fin 8) (e glyphs : Nat) (evicted : Option (Fin 128))
  | mountFailed (face : Fin 128) (pos : Fin 8) (cause : MountCause) (evicted : Option (Fin 128))
  | faceRetired (face : Fin 128) (pos : Fin 8)
  | storeDone (op : StoreOp) (outcome : StoreOutcome) (kinds : ErrorKinds)
  | storeData (tag : Byte) (page offset : Nat) (data : Bytes)
  | resetDone (r : ResetRecord)
  deriving DecidableEq, Repr

/-- The Order Link Unit (R169 to R183). -/
structure Olu where
  phase : Phase := .startup
  /-- the reset line is low (R167) -/
  resetLow : Bool := false
  record : ResetRecord := {}
  receiver : Receiver := .waiting
  /-- complete frames in the frame stores, oldest first (R172) -/
  frames : List Frame := []
  /-- the order the dispatcher acts on, until its answer has been sent in full; its frame store stays occupied (R172, R174) -/
  inHand : Option Head := none
  answerSlot : Option Return := none
  sending : Option Return := none
  /-- how many bytes of the return being sent have gone out on the transmit pair; the byte at that place is in progress (R176, R179;
  `Olu.txByte`) -/
  sent : Nat := 0
  /-- the answer to a RESET is on its way: the reset follows its last byte (R181) -/
  resetDue : Bool := false
  notices : List Notice := []
  lost : Nat := 0
  /-- the tick at which a running attention pulse ends (R171) -/
  pulse : Option Nat := none
  deriving DecidableEq, Repr

/-! ### The whole part -/

/-- The SC-440 with the master store on its store port. -/
structure State where
  olu : Olu := {}
  fdm : Fdm := {}
  ch : Vector Channel 4 := Vector.replicate 4 {}
  ce : Ce := {}
  fs : Fs := {}
  sq : Sq := {}
  ex : Ex := {}
  sa : Sa := {}
  /-- the master store's bytes that are not 255, by byte address 4096·page + offset, addresses rising (log entries 1 and 9) -/
  store : List Host.Cell := []
  /-- the timebase, in 1 µs ticks since the end of the last reset (R117) -/
  time : Nat := 0
  /-- the MODEL's own: the serial number of the next free value (log entry 2) -/
  serial : Nat := 0
  /-- the MODEL's own: the commands waiting, first in first out -/
  pending : List Instr := []
  deriving DecidableEq, Repr

/-- Faults: the model stops. -/
inductive Fault where
  /-- TRANSFER_COMPLETE of a request that names bytes outside the store's 4,096 pages of 4,096 bytes (R102): such bytes do not
  exist, and no requester of the book forms such a request (R108). Safe: nothing is claimed of the state after it. -/
  | noSuchBytes
  deriving DecidableEq, Repr

/-- Refusals: the model gives no meaning. -/
inductive Refusal where
  /-- A command that has no meaning yet, named by its mnemonic in spec/opcode_table.json; raised by exec's arms only. Safe. -/
  | notModelled (mnemonic : String)
  deriving DecidableEq, Repr

/-- The machine right after a power-on reset, with power good and the reset line high: every block at its value after reset,
the reset record POWER with count 0 (R180), and start-up begun, its eight bank closes sent and none reported (R182, R104).
Log entry 4. -/
def State.reset : State := { fs := { closing := Vector.replicate 8 true } }

end Sys2Proof.Machine
end

