-- ==== Sys2Proof/Machine/Checks.lean ====
section
/-! DEFINITION. The checks of frames and sections: the header check and body check of a frame (R168), the section check (R34)
and the check of a glyph master (R163). -/

namespace Sys2Proof.Machine

/-- R168: the byte that brings the five header bytes to 0 modulo 256. -/
def headerCheck (five : Bytes) : Byte := 0 - five.foldl (· + ·) 0

/-- `f` applied `n` times. -/
def iterate {α : Type} (f : α → α) : Nat → α → α
  | 0, x => x
  | n + 1, x => iterate f n (f x)

/-- One bit step of the body check's register: generator x^16+x^12+x^5+1, most significant bit first. -/
def crc16Bit (r : BitVec 16) : BitVec 16 := if r.msb then (r <<< 1) ^^^ 0x1021#16 else r <<< 1

/-- One byte of the body check. -/
def crc16Byte (r : BitVec 16) (b : Byte) : BitVec 16 :=
  iterate crc16Bit 8 (r ^^^ ((b.zeroExtend 16) <<< 8))

/-- R168: the body check of a body. -/
def bodyCheck (body : Bytes) : BitVec 16 := body.foldl crc16Byte 0xFFFF#16

/-- One bit step of the section check's register, whose least significant bit is the coefficient of x^31 (R34). -/
def crc32Bit (r : BitVec 32) : BitVec 32 := if r.getLsbD 0 then (r >>> 1) ^^^ 0xEDB88320#32 else r >>> 1

/-- One byte of the section check, least significant bit first. -/
def crc32Byte (r : BitVec 32) (b : Byte) : BitVec 32 :=
  iterate crc32Bit 8 (r ^^^ (b.zeroExtend 32))

/-- R34, test 7: the CRC-32 of a run of bytes, all bits set at the start and inverted at the end. -/
def crc32 (data : Bytes) : BitVec 32 := ~~~ (data.foldl crc32Byte 0xFFFFFFFF#32)

/-- R34, test 7: the section check of a section, its own four bytes (offsets 28 to 31) taken as zero. -/
def sectionCheck (sec : Bytes) : BitVec 32 := crc32 (sec.take 28 ++ [0, 0, 0, 0] ++ sec.drop 32)

/-- R163: the sum of a master's bytes modulo 65,536. -/
def masterSum (master : Bytes) : Nat := (master.foldl (fun n b => n + b.toNat) 0) % 65536

end Sys2Proof.Machine
end

