-- ==== Sys2Proof/Machine/Arith.lean ====
section
/-! DEFINITION. The arithmetic of chapter 1: the scaling rule and the clamps; and the updates of numbered things. -/

namespace Sys2Proof.Machine

/-- Element `i` of a numbered group replaced by `x`. -/
def setAt {α : Type} {n : Nat} (v : Vector α n) (i : Fin n) (x : α) : Vector α n := v.set i.val x i.isLt

/-- The eight mount positions, banks or master buffers, in number order. -/
def eights : List (Fin 8) := [0, 1, 2, 3, 4, 5, 6, 7]

/-- The four channels, in number order. -/
def fours : List (Fin 4) := [0, 1, 2, 3]

/-- The sixteen slots of the exposure queue, in number order (R138). -/
def sixteens : List (Fin 16) := [0, 1, 2, 3, 4, 5, 6, 7, 8, 9, 10, 11, 12, 13, 14, 15]

/-- R3: v·z·16 divided by d and rounded to nearest, a half away from zero. -/
def scale (v : Int) (z d : Nat) : Int :=
  let q : Nat := (2 * (v.natAbs * z * 16) + d) / (2 * d)
  if v < 0 then -(q : Int) else (q : Int)

/-- Section 1.3: a value outside `lo..hi` becomes the nearer end. -/
def clampNat (lo hi v : Nat) : Nat := if v < lo then lo else if hi < v then hi else v

/-- Section 1.3, for signed quantities. -/
def clampInt (lo hi v : Int) : Int := if v < lo then lo else if hi < v then hi else v

/-- R7: the range of a size or set width in quarter points. -/
def clampSize (v : Nat) : Nat := clampNat 16 576 v

/-- R7: the range of tracking. -/
def clampTrack (v : Int) : Int := clampInt (-200) 200 v

/-- R8: the effective set width for a size and set width in force. -/
def effSetw (size setw : Nat) : Nat := clampNat (size / 2) (size * 2) setw

/-- R9: a glyph width or figure width at use. -/
def clampWidth (v : Int) : Int := clampInt 0 4095 v

/-- R9: a kern at use. -/
def clampKern (v : Int) : Int := clampInt (-2048) 2047 v

/-- R9: an anchor or stack step coordinate at use. -/
def clampCoord (v : Int) : Int := clampInt (-8192) 8191 v

/-- R14: the escapement of a fixed space at effective set width s, FIGURE from the face's figure width and E. -/
def fixedEsc (k : FixedKind) (s e : Nat) (figure : Int) : Int :=
  match k with
  | .em => (16 * s : Nat)
  | .en => scale 500 s 1000
  | .thin => scale 167 s 1000
  | .figure => scale (clampWidth figure) s e

/-- R89: the share of slot `i` when an amount is spread over n slots. -/
def share (amount n i : Nat) : Nat := if n = 0 then 0 else amount / n + (if i < amount % n then 1 else 0)

/-- R16, R62: a baseline one leading below `next`, held at the end of the range. -/
def advance (next leading : Nat) : Nat := if 4194303 < next + leading then 4194303 else next + leading

end Sys2Proof.Machine
end

