-- ==== Sys2Proof/Machine/Operands.lean ====
section
/-! DEFINITION. The operand forms: the widths and byte order of fields (R184, R187), copy units (section 11.4), field lists
(R184), and the typed orders with their kinds and bodies (R185), encoded and decoded. -/

namespace Sys2Proof.Machine

/-! ### Fields -/

/-- A one-byte field. -/
def u8 (n : Nat) : Bytes := [BitVec.ofNat 8 n]

/-- A two-byte field, most significant byte first (R184). -/
def u16 (n : Nat) : Bytes := [BitVec.ofNat 8 (n / 256), BitVec.ofNat 8 n]

/-- A four-byte field, most significant byte first (R184). -/
def u32 (n : Nat) : Bytes := u16 (n / 65536) ++ u16 n

/-- A signed one-byte field, two's complement (R184). -/
def i8 (z : Int) : Bytes := u8 (BitVec.ofInt 8 z).toNat

/-- A signed two-byte field, two's complement (R184). -/
def i16 (z : Int) : Bytes := u16 (BitVec.ofInt 16 z).toNat

/-- A signed four-byte field, two's complement (R184). -/
def i32 (z : Int) : Bytes := u32 (BitVec.ofInt 32 z).toNat

/-- R187: a yes-or-no value. -/
def yesNo (b : Bool) : Bytes := u8 (if b then 1 else 0)

/-- R184: a one-byte value that may be none. -/
def opt8 (o : Option Nat) : Bytes := u8 (o.getD 255)

/-- R184: a two-byte value that may be none. -/
def opt16 (o : Option Nat) : Bytes := u16 (o.getD 65535)

/-- R187: a four-byte value that may be none. -/
def opt32 (o : Option Nat) : Bytes := u32 (o.getD 4294967295)

/-- A two-byte field from its bytes, most significant first (R184). -/
def word (hi lo : Byte) : Word := hi ++ lo

/-! ### Copy units (section 11.4, R63) -/

/-- The unit that a kind byte and a value stand for; none for an unknown kind or a value outside the enumeration of a BREAK,
FIXED, DIR, LIGS or END_PARA unit (R65). -/
def decodeUnit (r : RawUnit) : Option CopyUnit :=
  let v := r.value.toNat
  match r.kind.toNat with
  | 1 => some (.char v)
  | 2 => some .space
  | 3 => if v = 0 then some (.brk false) else if v = 1 then some (.brk true) else none
  | 4 => if v = 0 then some (.fixed .em) else if v = 1 then some (.fixed .en) else if v = 2 then some (.fixed .thin)
         else if v = 3 then some (.fixed .figure) else none
  | 5 => if v = 0 then some (.dir .ltr) else if v = 1 then some (.dir .rtl) else none
  | 6 => some (.face v)
  | 7 => some (.size v)
  | 8 => some (.setw v)
  | 9 => some (.track r.value.toInt)
  | 10 => if v = 0 then some (.ligs false) else if v = 1 then some (.ligs true) else none
  | 11 => some .endLine
  | 12 => if v = 0 then some (.endPara .leading) else if v = 1 then some (.endPara .trailing)
          else if v = 2 then some (.endPara .centre) else none
  | _ => none

/-- The units of a COPY order, or the place of its first offending unit (R65). -/
def decodeUnits : Nat → List RawUnit → Except Nat (List CopyUnit)
  | _, [] => .ok []
  | i, r :: rs =>
    match decodeUnit r with
    | none => .error i
    | some u =>
      match decodeUnits (i + 1) rs with
      | .ok us => .ok (u :: us)
      | .error j => .error j

/-! ### The fields of CHANNEL_SET (section 11.4, R58) -/

/-- The field of a field number. -/
def setFieldOf (n : Nat) : Option SetField :=
  match n with
  | 1 => some .measure
  | 2 => some .leading
  | 3 => some .indent
  | 4 => some .paraDir
  | 5 => some .wsMin
  | 6 => some .wsOpt
  | 7 => some .wsMax
  | 8 => some .letterLimit
  | 9 => some .elongLimit
  | 10 => some .priority
  | 11 => some .face
  | 12 => some .size
  | 13 => some .setw
  | 14 => some .track
  | 15 => some .ligs
  | 16 => some .fallback
  | 17 => some .hyphen
  | 18 => some .fullQuad
  | _ => none

/-- The field number of a field. -/
def SetField.number : SetField → Nat
  | .measure => 1
  | .leading => 2
  | .indent => 3
  | .paraDir => 4
  | .wsMin => 5
  | .wsOpt => 6
  | .wsMax => 7
  | .letterLimit => 8
  | .elongLimit => 9
  | .priority => 10
  | .face => 11
  | .size => 12
  | .setw => 13
  | .track => 14
  | .ligs => 15
  | .fallback => 16
  | .hyphen => 17
  | .fullQuad => 18

/-- The range of a numeric field (R58); none for an enumerated field and for tracking, which is signed. -/
def SetField.range : SetField → Option (Nat × Nat)
  | .measure => some (768, 55296)
  | .leading => some (0, 18432)
  | .indent => some (0, 55296)
  | .wsMin => some (0, 2000)
  | .wsOpt => some (0, 2000)
  | .wsMax => some (0, 2000)
  | .letterLimit => some (0, 200)
  | .elongLimit => some (0, 2000)
  | .face => some (0, 65535)
  | .size => some (16, 576)
  | .setw => some (16, 576)
  | .fallback => some (0, 65535)
  | .hyphen => some (0, 65535)
  | .paraDir => none
  | .priority => none
  | .track => none
  | .ligs => none
  | .fullQuad => none

/-- The number of values of an enumerated field (R59). -/
def SetField.enumSize : SetField → Option Nat
  | .paraDir => some 2
  | .priority => some 2
  | .ligs => some 2
  | .fullQuad => some 4
  | _ => none

/-- A value brought into its field's range (R6). -/
def SetField.clamp (f : SetField) (v : Word) : Word :=
  match f.range with
  | some (lo, hi) => BitVec.ofNat 16 (clampNat lo hi v.toNat)
  | none => if f = .track then BitVec.ofInt 16 (clampTrack v.toInt) else v

/-- The direction of a code (section 11.4). -/
def dirOf (n : Nat) : Dir := if n = 0 then .ltr else .rtl

/-- The quad of a code (section 11.4). -/
def quadOf (n : Nat) : Quad := if n = 0 then .leading else if n = 1 then .trailing else if n = 2 then .centre else .justify

/-- The context with one field written (R59); the value is already in its range. -/
def Context.write (c : Context) (f : SetField) (v : Word) : Context :=
  let n := v.toNat
  match f with
  | .measure => { c with measure := n }
  | .leading => { c with leading := n }
  | .indent => { c with indent := n }
  | .paraDir => { c with paraDir := dirOf n }
  | .wsMin => { c with wsMin := n }
  | .wsOpt => { c with wsOpt := n }
  | .wsMax => { c with wsMax := n }
  | .letterLimit => { c with letterLimit := n }
  | .elongLimit => { c with elongLimit := n }
  | .priority => { c with priority := if n = 0 then .spacesFirst else .elongationFirst }
  | .face => { c with face := n }
  | .size => { c with size := n }
  | .setw => { c with setw := n }
  | .track => { c with track := v.toInt }
  | .ligs => { c with ligs := n ≠ 0 }
  | .fallback => { c with fallback := n }
  | .hyphen => { c with hyphen := n }
  | .fullQuad => { c with fullQuad := quadOf n }

/-- The context with a list of fields written, first to last. -/
def Context.writeAll (c : Context) (fs : List (SetField × Word)) : Context := fs.foldl (fun c p => c.write p.1 p.2) c

/-! ### Field lists (R184) -/

/-- A field list's bytes as entries; none when their number is not a multiple of 3. -/
def parseFields : Bytes → Option (List FieldEntry)
  | [] => some []
  | n :: a :: b :: rest => (parseFields rest).map (FieldEntry.mk n (word a b) :: ·)
  | _ => none

/-- A copy body's bytes as units; none when their number is not a multiple of 3. -/
def parseUnits : Bytes → Option (List RawUnit)
  | [] => some []
  | n :: a :: b :: rest => (parseUnits rest).map (RawUnit.mk n (word a b) :: ·)
  | _ => none

/-- R184: no field number of the list appears twice. -/
def noTwice (fs : List FieldEntry) : Bool := (fs.map (·.number)).Nodup

/-! ### The orders (R185) -/

/-- An order with the fields of its body, in the widths of section 11.4. -/
inductive Order where
  | copy (units : List RawUnit)
  | channelSet (fields : List FieldEntry)
  | column (top : BitVec 32)
  | cancel
  | release
  | channelQuery
  | faceDefine (face : Byte) (base size : Word)
  | faceWithdraw (face : Byte)
  | mapLock
  | faceQuery (face : Byte)
  | mount (face : Byte)
  | fetchSet (fields : List FieldEntry)
  | storeWrite (page offset : Word) (data : Bytes)
  | storeErase (block : Byte)
  | storeBlank (first last : Word) (direction : Byte)
  | storeRead (page offset length : Word)
  | storeMode (mode limit : Byte)
  | storeClear
  | storeAbort
  | storeWindow (first last : Byte)
  | storeQuery
  | filmCut
  | exposeSet (fields : List FieldEntry)
  | exposeHold
  | exposeResume
  | exposeQuery
  | status
  | reset
  | recordClear
  deriving DecidableEq, Repr

/-- The kind byte of an order (R185). -/
def Order.kind : Order → Byte
  | .copy _ => 0x10
  | .channelSet _ => 0x11
  | .column _ => 0x12
  | .cancel => 0x13
  | .release => 0x14
  | .channelQuery => 0x15
  | .faceDefine _ _ _ => 0x20
  | .faceWithdraw _ => 0x21
  | .mapLock => 0x22
  | .faceQuery _ => 0x23
  | .mount _ => 0x24
  | .fetchSet _ => 0x28
  | .storeWrite _ _ _ => 0x30
  | .storeErase _ => 0x31
  | .storeBlank _ _ _ => 0x32
  | .storeRead _ _ _ => 0x33
  | .storeMode _ _ => 0x34
  | .storeClear => 0x35
  | .storeAbort => 0x36
  | .storeWindow _ _ => 0x37
  | .storeQuery => 0x38
  | .filmCut => 0x40
  | .exposeSet _ => 0x41
  | .exposeHold => 0x42
  | .exposeResume => 0x43
  | .exposeQuery => 0x44
  | .status => 0x50
  | .reset => 0x51
  | .recordClear => 0x52

/-- The orders that name a channel in their target (R185). -/
def Order.forChannel : Order → Bool
  | .copy _ => true
  | .channelSet _ => true
  | .column _ => true
  | .cancel => true
  | .release => true
  | .channelQuery => true
  | _ => false

/-- The body of an order, byte by byte (section 11.4). -/
def Order.body : Order → Bytes
  | .copy us => us.flatMap (fun r => r.kind :: u16 r.value.toNat)
  | .channelSet fs => fs.flatMap (fun e => e.number :: u16 e.value.toNat)
  | .column top => u32 top.toNat
  | .faceDefine f b s => f :: (u16 b.toNat ++ u16 s.toNat)
  | .faceWithdraw f => [f]
  | .faceQuery f => [f]
  | .mount f => [f]
  | .fetchSet fs => fs.flatMap (fun e => e.number :: u16 e.value.toNat)
  | .storeWrite p o d => u16 p.toNat ++ u16 o.toNat ++ d
  | .storeErase b => [b]
  | .storeBlank f l d => u16 f.toNat ++ u16 l.toNat ++ [d]
  | .storeRead p o n => u16 p.toNat ++ u16 o.toNat ++ u16 n.toNat
  | .storeMode m s => [m, s]
  | .storeWindow f l => [f, l]
  | .exposeSet fs => fs.flatMap (fun e => e.number :: u16 e.value.toNat)
  | _ => []

/-- R173, test 3, less the target: the body length is one that the order's row of R185 allows, and the fields the order link
tests lie in their enumerations (the direction of STORE_BLANK and the mode of STORE_MODE; log entry 34). -/
def Order.formOk : Order → Bool
  | .copy us => 1 ≤ us.length && us.length ≤ 512
  | .channelSet fs => fs.length ≤ 18
  | .fetchSet fs => fs.length ≤ 2
  | .exposeSet fs => fs.length ≤ 6
  | .storeWrite _ _ d => d.length == 256
  | .storeBlank _ _ d => d.toNat ≤ 1
  | .storeMode m _ => m.toNat ≤ 1
  | _ => true

/-- Why the order link refuses a frame before its owning block sees it (R173). -/
inductive LinkError where
  | unknown
  | form
  deriving DecidableEq, Repr

/-- The order of an empty body, or a FORM refusal. -/
def emptyBody (o : Order) : Bytes → Except LinkError Order
  | [] => .ok o
  | _ => .error .form

/-- The order of a one-byte body, or a FORM refusal. -/
def oneByte (f : Byte → Order) : Bytes → Except LinkError Order
  | [b] => .ok (f b)
  | _ => .error .form

/-- An option as an order or a FORM refusal. -/
def orForm : Option Order → Except LinkError Order
  | some o => .ok o
  | none => .error .form

/-- R173, tests 2 and 3: the order that a frame's kind and body stand for, or UNKNOWN, or FORM where the body's bytes do not
make the fields of the order's row. -/
def decodeOrder (kind : Byte) (body : Bytes) : Except LinkError Order :=
  match kind.toNat with
  | 0x10 => orForm ((parseUnits body).map .copy)
  | 0x11 => orForm ((parseFields body).map .channelSet)
  | 0x12 => match body with
    | [a, b, c, d] => .ok (.column (word a b ++ word c d))
    | _ => .error .form
  | 0x13 => emptyBody .cancel body
  | 0x14 => emptyBody .release body
  | 0x15 => emptyBody .channelQuery body
  | 0x20 => match body with
    | [f, a, b, c, d] => .ok (.faceDefine f (word a b) (word c d))
    | _ => .error .form
  | 0x21 => oneByte .faceWithdraw body
  | 0x22 => emptyBody .mapLock body
  | 0x23 => oneByte .faceQuery body
  | 0x24 => oneByte .mount body
  | 0x28 => orForm ((parseFields body).map .fetchSet)
  | 0x30 => match body with
    | a :: b :: c :: d :: data => .ok (.storeWrite (word a b) (word c d) data)
    | _ => .error .form
  | 0x31 => oneByte .storeErase body
  | 0x32 => match body with
    | [a, b, c, d, e] => .ok (.storeBlank (word a b) (word c d) e)
    | _ => .error .form
  | 0x33 => match body with
    | [a, b, c, d, e, f] => .ok (.storeRead (word a b) (word c d) (word e f))
    | _ => .error .form
  | 0x34 => match body with
    | [m, s] => .ok (.storeMode m s)
    | _ => .error .form
  | 0x35 => emptyBody .storeClear body
  | 0x36 => emptyBody .storeAbort body
  | 0x37 => match body with
    | [f, l] => .ok (.storeWindow f l)
    | _ => .error .form
  | 0x38 => emptyBody .storeQuery body
  | 0x40 => emptyBody .filmCut body
  | 0x41 => orForm ((parseFields body).map .exposeSet)
  | 0x42 => emptyBody .exposeHold body
  | 0x43 => emptyBody .exposeResume body
  | 0x44 => emptyBody .exposeQuery body
  | 0x50 => emptyBody .status body
  | 0x51 => emptyBody .reset body
  | 0x52 => emptyBody .recordClear body
  | _ => .error .unknown

end Sys2Proof.Machine
end

