-- ==== Sys2Proof/Machine/Metrics.lean ====
section
/-! DEFINITION. The metric section of a face: its layout (section 11.7), the tables it holds (R24, R25) and the tests the mount
loader makes of it (R34). -/

namespace Sys2Proof.Machine

/-- The two-byte field at an offset. -/
def at16 (m : Bytes) (o : Nat) : Nat :=
  match m.drop o with
  | a :: b :: _ => (word a b).toNat
  | _ => 0

/-- The signed two-byte field at an offset. -/
def at16s (m : Bytes) (o : Nat) : Int := (BitVec.ofNat 16 (at16 m o)).toInt

/-- The four-byte field at an offset. -/
def at32 (m : Bytes) (o : Nat) : Nat := at16 m o * 65536 + at16 m (o + 2)

/-- A glyph record (R25): kind 0 BASE, 1 MARK_ABOVE, 2 MARK_BELOW, anything else invalid. -/
structure GlyphRec where
  width : Int
  kind : Nat
  ax : Int
  ay : Int
  sx : Int
  sy : Int
  master : Nat
  deriving DecidableEq, Repr, Inhabited

/-- A character map entry (R25): class 0 NON, 1 RIGHT, 2 DUAL, 3 TRANSPARENT; 65535 is an absent form. -/
structure MapEntry where
  code : Nat
  cls : Nat
  iso : Nat
  ini : Nat
  med : Nat
  fin : Nat
  deriving DecidableEq, Repr, Inhabited

/-- A ligature entry (R25); a third component of 65535 makes it a two-component ligature. -/
structure LigEntry where
  c1 : Nat
  c2 : Nat
  c3 : Nat
  result : Nat
  deriving DecidableEq, Repr, Inhabited

/-- A kern entry (R25). -/
structure KernEntry where
  left : Nat
  right : Nat
  adjust : Int
  deriving DecidableEq, Repr, Inhabited

/-- A face's metrics as composition and exposure read them in metric memory (R24, R25). -/
structure Face where
  e : Nat
  missing : Nat
  dflt : Nat
  ext : Nat
  figure : Int
  glyphs : List GlyphRec
  map : List MapEntry
  ligs : List LigEntry
  kerns : List KernEntry
  deriving DecidableEq, Repr, Inhabited

/-- `n` records of `w` bytes each, laid end to end from the head of `m`. -/
def records {α : Type} (f : Bytes → α) (w : Nat) : Nat → Bytes → List α
  | 0, _ => []
  | n + 1, m => f (m.take w) :: records f w n (m.drop w)

/-- A glyph record's bytes (section 11.7). -/
def parseGlyph (m : Bytes) : GlyphRec :=
  { width := at16s m 0, kind := at16 m 2, ax := at16s m 4, ay := at16s m 6, sx := at16s m 8, sy := at16s m 10,
    master := at32 m 12 }

/-- A character map entry's bytes (section 11.7). -/
def parseMapEntry (m : Bytes) : MapEntry :=
  { code := at16 m 0, cls := at16 m 2, iso := at16 m 4, ini := at16 m 6, med := at16 m 8, fin := at16 m 10 }

/-- A ligature entry's bytes (section 11.7). -/
def parseLig (m : Bytes) : LigEntry := { c1 := at16 m 0, c2 := at16 m 2, c3 := at16 m 4, result := at16 m 6 }

/-- A kern entry's bytes (section 11.7). -/
def parseKern (m : Bytes) : KernEntry := { left := at16 m 0, right := at16 m 2, adjust := at16s m 4 }

/-- The offset of the character map (section 11.7). -/
def mapOffset (m : Bytes) : Nat := 64 + 16 * at16 m 8

/-- The offset of the ligature table (section 11.7). -/
def ligOffset (m : Bytes) : Nat := mapOffset m + 12 * at16 m 10

/-- The offset of the kern table (section 11.7). -/
def kernOffset (m : Bytes) : Nat := ligOffset m + 8 * at16 m 12

/-- The metric section's tables and header fields (section 11.7). -/
def parseFace (m : Bytes) : Face :=
  { e := at16 m 6, missing := at16 m 16, dflt := at16 m 18, ext := at16 m 20, figure := at16s m 22,
    glyphs := records parseGlyph 16 (at16 m 8) (m.drop 64),
    map := records parseMapEntry 12 (at16 m 10) (m.drop (mapOffset m)),
    ligs := records parseLig 8 (at16 m 12) (m.drop (ligOffset m)),
    kerns := records parseKern 6 (at16 m 14) (m.drop (kernOffset m)) }

/-- The glyph record of an id (section 11.7). -/
def Face.glyph (f : Face) (id : Nat) : GlyphRec := f.glyphs.getD id default

/-- R34, tests 1 to 6, on the base page of a region of `size` pages: the first failing test's cause. -/
def headerTest (m : Bytes) (size : Nat) : Option MountCause :=
  if m.take 4 ≠ [0x47, 0x44, 0x46, 0x4D] ∨ at16 m 4 ≠ 1 then some .format
  else if at16 m 6 < 18 ∨ 4096 < at16 m 6 then some .format
  else if 2048 < at16 m 8 ∨ 2048 < at16 m 10 ∨ 256 < at16 m 12 ∨ 4096 < at16 m 14 then some .tooLarge
  else if at32 m 24 ≠ kernOffset m + 6 * at16 m 14 then some .format
  else if 65536 < at32 m 24 ∨ 4096 * size < at32 m 24 then some .tooLarge
  else if at16 m 8 ≤ at16 m 16 ∨ at16 m 8 ≤ at16 m 18 ∨ at16 m 8 ≤ at16 m 20 then some .format
  else none

/-- The list rises strictly from each entry to the next, by the key given. -/
def rising {α : Type} (lt : α → α → Bool) : List α → Bool
  | a :: b :: rest => lt a b && rising lt (b :: rest)
  | _ => true

/-- R34, test 10, for one entry: the class is one of the four, the isolated form is a glyph, the others absent or glyphs. -/
def mapEntryOk (n : Nat) (e : MapEntry) : Bool :=
  decide (e.cls ≤ 3) && decide (e.iso < n) && (e.ini == 65535 || decide (e.ini < n)) && (e.med == 65535 || decide (e.med < n)) &&
    (e.fin == 65535 || decide (e.fin < n))

/-- R34, tests 8 to 12, on the tables of a face whose region has `size` pages. -/
def tablesOk (f : Face) (size : Nat) : Bool :=
  let n := f.glyphs.length
  f.glyphs.all (fun g => decide (g.kind ≤ 2) && decide (g.master < 4096 * size)) &&
    (f.glyph f.missing).kind == 0 && (f.glyph f.dflt).kind == 0 &&
    rising (fun a b => decide (a.code < b.code)) f.map && f.map.all (mapEntryOk n) &&
    f.ligs.all (fun l => decide (l.c1 < n) && decide (l.c2 < n) && decide (l.result < n) && (l.c3 == 65535 || decide (l.c3 < n))) &&
    rising (fun a b => decide (a.left < b.left) || (a.left == b.left && decide (a.right < b.right))) f.kerns &&
    f.kerns.all (fun k => decide (k.left < n) && decide (k.right < n))

/-- R34, tests 7 to 12, on the whole section of a region of `size` pages: the first failing test's cause. -/
def bodyTest (m : Bytes) (size : Nat) : Option MountCause :=
  if sectionCheck m ≠ BitVec.ofNat 32 (at32 m 28) then some .check
  else if tablesOk (parseFace m) size then none else some .format

/-- The section in a position's metric memory: its pages end to end, as far as the section length (R33). -/
def MountPos.sectionBytes (p : MountPos) : Bytes :=
  let all := p.memory.flatMap (·.2)
  all.take (at32 all 24)

/-- The metrics of the face mounted at a position. -/
def MountPos.metrics (p : MountPos) : Face := parseFace p.sectionBytes

/-- A page of the section placed in metric memory (R33), pages kept in order. -/
def placePage (k : Nat) (data : Bytes) : List (Nat × Bytes) → List (Nat × Bytes)
  | [] => [(k, data)]
  | q :: rest => if k < q.1 then (k, data) :: q :: rest else if k = q.1 then (k, data) :: rest else q :: placePage k data rest

end Sys2Proof.Machine
end

