-- ==== Sys2Proof/Machine/Shape.lean ====
section
/-! DEFINITION. Shaping (chapter 3): the units read, in logical order, become letters, base glyphs, ligatures and clusters.
Everything here is a function of the units read and of the metrics at the mount positions, given as a function `F`. -/

namespace Sys2Proof.Machine

/-! ### Map lookup (R41) -/

/-- A CHAR unit after map lookup (R41): its place in the span, its joining class (0 NON, 1 RIGHT, 2 DUAL, 3 TRANSPARENT), its
four forms, and whether its code was absent from the map. -/
structure Letter where
  idx : Nat
  entry : MapEntry
  absent : Bool
  work : Working
  run : Nat
  deriving DecidableEq, Repr

/-- R41: the entry of a code; an absent code gives the missing glyph as every form, with class NON. -/
def Face.entryOf (f : Face) (code : Nat) : MapEntry × Bool :=
  match f.map.find? (fun e => e.code == code) with
  | some e => (e, false)
  | none => (⟨code, 0, f.missing, f.missing, f.missing, f.missing⟩, true)

/-- The letter of a unit, if it is a CHAR. -/
def letterOf (F : Fin 8 → Face) (i : Nat) (r : ReadUnit) : Option Letter :=
  match r.unit with
  | .char code =>
    let e := (F r.work.drawn.pos).entryOf code
    some { idx := i, entry := e.1, absent := e.2, work := r.work, run := r.run }
  | _ => none

/-- The letters of the units read, in logical order. -/
def lettersOf (F : Fin 8 → Face) (read : List ReadUnit) : List Letter :=
  read.zipIdx.filterMap (fun p => letterOf F p.2 p.1)

/-- R42: a TRANSPARENT character whose isolated form is a mark glyph is set as a mark. -/
def Letter.isMark (F : Fin 8 → Face) (l : Letter) : Bool :=
  l.entry.cls == 3 && ((F l.work.drawn.pos).glyph l.entry.iso).kind != 0

/-! ### Joining (R43 to R45) -/

/-- R43: the nearest earlier character of the run that is not TRANSPARENT. -/
def prevNeighbour (ls : List Letter) (l : Letter) : Option Letter :=
  (ls.filter (fun m => m.run == l.run && decide (m.idx < l.idx) && m.entry.cls != 3)).getLast?

/-- R43: the nearest later character of the run that is not TRANSPARENT. -/
def nextNeighbour (ls : List Letter) (l : Letter) : Option Letter :=
  ls.find? (fun m => m.run == l.run && decide (l.idx < m.idx) && m.entry.cls != 3)

/-- R45: a set join carry stands in for the previous neighbour of the first non-transparent character of the span, when no unit
has ended a run before it and the face drawn on and the direction are the carried ones. -/
def carryApplies (carry : Option Carry) (ls : List Letter) (l : Letter) : Bool :=
  match carry with
  | some c =>
    (ls.find? (fun m => m.entry.cls != 3)).map (·.idx) == some l.idx && l.run == 0 && l.work.drawn.face == c.face &&
      l.work.dir == c.dir
  | none => false

/-- R44: the character joins its previous neighbour. -/
def joinsPrev (carry : Option Carry) (ls : List Letter) (l : Letter) : Bool :=
  (l.entry.cls == 1 || l.entry.cls == 2) &&
    (match prevNeighbour ls l with
    | some p => p.entry.cls == 2
    | none => carryApplies carry ls l)

/-- R44: the character joins its next neighbour. -/
def joinsNext (ls : List Letter) (l : Letter) : Bool :=
  l.entry.cls == 2 &&
    (match nextNeighbour ls l with
    | some n => n.entry.cls == 1 || n.entry.cls == 2
    | none => false)

/-- R44: the form taken, or the isolated form where it is absent. -/
def MapEntry.form (e : MapEntry) (jp jn : Bool) : Nat :=
  let g := match jp, jn with
    | false, false => e.iso
    | true, false => e.fin
    | false, true => e.ini
    | true, true => e.med
  if g = 65535 then e.iso else g

/-! ### Settling (R39) -/

/-- A run has ended: a unit that ends it has been read, or the span is read out and full. -/
def runEnded (read : List ReadUnit) (closed : Bool) (run : Nat) : Bool :=
  closed || read.any (fun r => r.run == run && r.endsRun)

/-- R39: the units a character's own steps depend on have been read. -/
def Letter.settled (read : List ReadUnit) (closed : Bool) (ls : List Letter) (l : Letter) : Bool :=
  runEnded read closed l.run || (nextNeighbour ls l).isSome

/-! ### Base glyphs and ligatures (R46 to R48) -/

/-- A base glyph: the units of its first and last component, its glyph id and joins, and the context at its first unit. -/
structure BaseGlyph where
  first : Nat
  last : Nat
  glyph : Nat
  jp : Bool := false
  jn : Bool := false
  work : Working
  run : Nat
  /-- it is the missing glyph, set for an absent code (R41) -/
  absent : Bool := false
  /-- it may be a component after the base glyph before it: same run, and only marks between (R46) -/
  linked : Bool := false
  /-- its own character is settled (R39) -/
  charOk : Bool := false
  /-- it is settled, ligature matching included (R39) -/
  settled : Bool := false
  deriving DecidableEq, Repr

/-- R46: a unit that prevents a match when it stands between two components (a unit that ends the run does too, by the run). -/
def blocksLigature : CopyUnit → Bool
  | .brk _ => true
  | .size _ => true
  | .setw _ => true
  | .track _ => true
  | .ligs _ => true
  | _ => false

/-- A unit that prevents a match stands between units i and j. -/
def blockedBetween (read : List ReadUnit) (i j : Nat) : Bool :=
  read.zipIdx.any (fun p => decide (i < p.2) && decide (p.2 < j) && blocksLigature p.1.unit)

/-- The base glyphs that form selection gives, in logical order, before ligature matching. -/
def basesOf (F : Fin 8 → Face) (carry : Option Carry) (closed : Bool) (read : List ReadUnit) : List BaseGlyph :=
  let ls := lettersOf F read
  let bs := ls.filter (fun l => !l.isMark F)
  bs.map (fun l =>
    let jp := joinsPrev carry ls l
    let jn := joinsNext ls l
    let prev := (bs.filter (fun m => m.run == l.run && decide (m.idx < l.idx))).getLast?
    { first := l.idx, last := l.idx, glyph := l.entry.form jp jn, jp := jp, jn := jn, work := l.work, run := l.run,
      absent := l.absent,
      linked := match prev with
        | some m => !blockedBetween read m.idx l.idx
        | none => false,
      charOk := l.settled read closed ls })

/-- R39: the units that a base glyph's own steps depend on have been read: the second base glyph after it in its run too where it may
begin a ligature, or the end of its run. -/
def baseSettled (ended : Nat → Bool) (b : BaseGlyph) (rest : List BaseGlyph) : Bool :=
  ended b.run ||
    (b.charOk &&
      (!b.work.ligs ||
        (match rest with
        | c :: d :: _ => c.run == b.run && d.run == b.run
        | _ => false)))

/-- R47: the ligature that begins at a base glyph: the entry's result and the last component, three components tried before two. -/
def ligatureAt (F : Fin 8 → Face) (b : BaseGlyph) (rest : List BaseGlyph) : Option (Nat × BaseGlyph × Nat) :=
  if b.work.ligs then
    let table : List LigEntry := (F b.work.drawn.pos).ligs
    match rest with
    | [] => none
    | c :: more =>
      if c.run = b.run ∧ c.linked then
        let three := match more with
          | d :: _ =>
            if d.run = b.run ∧ d.linked then
              (table.find? (fun (e : LigEntry) => e.c3 != 65535 && e.c1 == b.glyph && e.c2 == c.glyph && e.c3 == d.glyph)).map
                (fun (e : LigEntry) => (e.result, d, 2))
            else none
          | [] => none
        three.or ((table.find? (fun (e : LigEntry) => e.c3 == 65535 && e.c1 == b.glyph && e.c2 == c.glyph)).map
          (fun (e : LigEntry) => (e.result, c, 1)))
      else none
  else none

/-- R47, R48: ligature matching from the first base glyph forward; a result joins as its outer components did, and is settled when
every unit in it is (R39, R85, log entry 13). -/
def matchLigatures (F : Fin 8 → Face) (ended : Nat → Bool) : Nat → List BaseGlyph → List BaseGlyph
  | 0, bs => bs
  | _ + 1, [] => []
  | n + 1, b :: rest =>
    let ok := baseSettled ended b rest
    match ligatureAt F b rest with
    | some (g, l, k) =>
      { b with last := l.last, glyph := g, jn := l.jn, absent := false, settled := ok && (rest.take k).all (·.charOk) } ::
        matchLigatures F ended n (rest.drop k)
    | none => { b with settled := ok } :: matchLigatures F ended n rest

/-! ### Marks and clusters (R49 to R51) -/

/-- A cluster: a base glyph, the marks attached to it (at most four) and the units of the marks dropped (R49, R51). -/
structure Cluster where
  base : BaseGlyph
  marks : List Letter
  dropped : List Nat
  deriving DecidableEq, Repr

/-- The last unit of a cluster, dropped marks included (R84). -/
def Cluster.lastUnit (c : Cluster) : Nat :=
  (c.marks.map (·.idx) ++ c.dropped).foldl max c.base.last

/-- R49: the default base glyph inserted before an orphan mark. -/
def orphanBase (F : Fin 8 → Face) (m : Letter) (settled : Bool) : BaseGlyph :=
  { first := m.idx, last := m.idx, glyph := (F m.work.drawn.pos).dflt, work := m.work, run := m.run, settled := settled }

/-- A base glyph put in its logical place. -/
def insertBase (b : BaseGlyph) : List BaseGlyph → List BaseGlyph
  | [] => [b]
  | c :: rest => if b.first < c.first then b :: c :: rest else c :: insertBase b rest

/-- R49: the base glyphs with the default bases inserted for orphans: one before the first mark of a run that precedes every base
glyph of its run. -/
def withOrphans (F : Fin 8 → Face) (read : List ReadUnit) (closed : Bool) (ls : List Letter) (bs : List BaseGlyph) :
    List BaseGlyph :=
  let ms := ls.filter (fun l => l.isMark F)
  let orphans := ms.filter (fun m =>
    !(bs.any (fun b => b.run == m.run && decide (b.first < m.idx))) &&
      !(ms.any (fun k => k.run == m.run && decide (k.idx < m.idx))))
  orphans.foldl (fun acc m => insertBase (orphanBase F m (m.settled read closed ls)) acc) bs

/-- R49: the mark attaches to the base glyph: it is the nearest preceding one of the run. -/
def attaches (all : List BaseGlyph) (b : BaseGlyph) (m : Letter) : Bool :=
  m.run == b.run && decide (b.first ≤ m.idx) &&
    !(all.any (fun c => c.run == b.run && decide (b.first < c.first) && decide (c.first ≤ m.idx)))

/-- Shaping of the units read: the clusters in logical order. -/
def clustersOf (F : Fin 8 → Face) (carry : Option Carry) (closed : Bool) (read : List ReadUnit) : List Cluster :=
  let ls := lettersOf F read
  let bs := basesOf F carry closed read
  let all := withOrphans F read closed ls (matchLigatures F (runEnded read closed) bs.length bs)
  all.map (fun b =>
    let ms := ls.filter (fun l => l.isMark F && attaches all b l)
    { base := b, marks := ms.take 4, dropped := (ms.drop 4).map (·.idx) })

/-! ### Measures (R9, R11, R12, R16, R50 to R52) -/

/-- The effective set width at a unit (R8). -/
def Working.eff (w : Working) : Nat := effSetw w.size w.setw

/-- R11: the escapement of a glyph of the face drawn on in a context. -/
def glyphEsc (F : Fin 8 → Face) (w : Working) (glyph : Nat) : Int :=
  let f := F w.drawn.pos
  scale (clampWidth (f.glyph glyph).width) w.eff f.e

/-- R9: a face value lies outside its range. -/
def outside (lo hi v : Int) : Bool := decide (v < lo) || decide (hi < v)

/-- R9: the glyph's width is clamped where it is used. -/
def glyphClamped (F : Fin 8 → Face) (w : Working) (glyph : Nat) : Bool :=
  outside 0 4095 ((F w.drawn.pos).glyph glyph).width

/-- R52: the kern entry's adjustment for a pair, 0 without an entry. -/
def kernOf (f : Face) (left right : Nat) : Int :=
  match f.kerns.find? (fun k => k.left == left && k.right == right) with
  | some k => k.adjust
  | none => 0

/-- R12: the kern part of the gap a base glyph owns toward the next one. -/
def kernPart (F : Fin 8 → Face) (a b : BaseGlyph) : Int :=
  let f := F a.work.drawn.pos
  scale (clampKern (kernOf f a.glyph b.glyph)) a.work.eff f.e

/-- R12: the tracking part of a gap. -/
def trackPart (w : Working) : Int := scale w.track w.eff 1000

/-- R12, R53: the kern and tracking parts of the gap between consecutive base glyphs, which exists within one run only. -/
def gapParts (F : Fin 8 → Face) (a b : BaseGlyph) : Int :=
  if a.run = b.run then kernPart F a b + trackPart a.work else 0

/-- R54: the class of the gap a base glyph owns. -/
def BaseGlyph.gapClass (b : BaseGlyph) : GapClass := if b.jn then .elongation else .letterspace

/-- A mark's offsets with stack displacement, and whether a coordinate used was clamped (R16, R50, R51); `j` is the number of
earlier marks of its kind on the base. The stack step of a first mark, which displaces nothing, does not count as used (R9, log
entry 53). -/
def markOffset (F : Fin 8 → Face) (b : BaseGlyph) (m : Letter) (j : Nat) : Int × Int × Bool :=
  let f := F b.work.drawn.pos
  let bg := f.glyph b.glyph
  let mg := f.glyph m.entry.iso
  let px := if mg.kind = 1 then bg.ax else bg.sx
  let py := if mg.kind = 1 then bg.ay else bg.sy
  let s := b.work.eff
  let z := b.work.size
  let out := outside (-8192) 8191
  (scale (clampCoord px - clampCoord mg.ax) s f.e + j * scale (clampCoord mg.sx) s f.e,
   scale (clampCoord py - clampCoord mg.ay) z f.e + j * scale (clampCoord mg.sy) z f.e,
   out px || out py || out mg.ax || out mg.ay || (j != 0 && (out mg.sx || out mg.sy)))

/-- R51: the number of earlier marks of a mark's kind among the marks before it on its base. -/
def earlierOfKind (F : Fin 8 → Face) (before : List Letter) (m : Letter) : Nat :=
  let kind (l : Letter) := ((F l.work.drawn.pos).glyph l.entry.iso).kind
  (before.filter (fun l => kind l == kind m)).length

end Sys2Proof.Machine
end

