-- ==== Sys2Proof/Machine/Justify.lean ====
section
/-! DEFINITION. The line's end and its justification: candidate ends, the walk and the placement limit (R81 to R87), and the
spreading of slack (R88 to R94). -/

namespace Sys2Proof.Machine

/-- What a line is set under: the metrics at the mount positions, the setting context fixed at its beginning, and the line's set
width (R77, R13). -/
structure Setting where
  F : Fin 8 → Face
  ctx : Context
  setw : Nat

/-- R13: the line's scaled word-space minimum. -/
def Setting.spMin (g : Setting) : Int := scale g.ctx.wsMin g.setw 1000

/-- R13: the line's scaled word-space optimum. -/
def Setting.spOpt (g : Setting) : Int := scale g.ctx.wsOpt g.setw 1000

/-- R13: the line's scaled word-space maximum. -/
def Setting.spMax (g : Setting) : Int := scale g.ctx.wsMax g.setw 1000

/-- R13: the letterspace capacity of a gap. -/
def Setting.letterCap (g : Setting) : Nat := (scale g.ctx.letterLimit g.setw 1000).toNat

/-- R13: the elongation capacity of an elongation point. -/
def Setting.elongCap (g : Setting) : Nat := (scale g.ctx.elongLimit g.setw 1000).toNat

/-! ### Items (R81, R84) -/

/-- What a unit of the span is to the walk; the other units set nothing. -/
inductive Item where
  | cluster (c : Cluster)
  | space
  | fixed (k : FixedKind)
  | brk (hyphen : Bool)
  | ending (para : Option Quad)
  deriving DecidableEq, Repr

/-- An item with its unit index and unit. -/
structure ItemAt where
  idx : Nat
  unit : ReadUnit
  item : Item
  deriving DecidableEq, Repr

/-- The item that stands at a unit. -/
def itemAt (cs : List Cluster) (i : Nat) (r : ReadUnit) : Option ItemAt :=
  let mk (x : Item) : Option ItemAt := some ⟨i, r, x⟩
  match r.unit with
  | .char _ => (cs.find? (fun c => c.base.first == i)).bind (fun c => mk (.cluster c))
  | .space => mk .space
  | .fixed k => mk (.fixed k)
  | .brk h => mk (.brk h)
  | .endLine => mk (.ending none)
  | .endPara q => mk (.ending (some q))
  | _ => none

/-- The items of the units read, in logical order. -/
def itemsOf (cs : List Cluster) (read : List ReadUnit) : List ItemAt :=
  read.zipIdx.filterMap (fun p => itemAt cs p.2 p.1)

/-! ### The hyphen and fixed spaces (R14, R15) -/

/-- R15: the hyphen glyph in a context, and whether it is the missing glyph for an absent code. -/
def Setting.hyphen (g : Setting) (w : Working) : Nat × Bool :=
  let e := (g.F w.drawn.pos).entryOf g.ctx.hyphen
  (e.1.iso, e.2)

/-- R15: the hyphen's escapement at a BREAK. -/
def Setting.hyphenEsc (g : Setting) (w : Working) : Int := glyphEsc g.F w (g.hyphen w).1

/-- R14: the escapement of a FIXED unit. -/
def Setting.fixedEsc (g : Setting) (k : FixedKind) (w : Working) : Int :=
  let f := g.F w.drawn.pos
  Sys2Proof.Machine.fixedEsc k w.eff f.e f.figure

/-! ### The walk (R82 to R85) -/

/-- How a line ends (R81, R84). -/
inductive EndKind where
  | space
  | brk (hyphen : Bool)
  | endLine
  | endPara (q : Quad)
  | forced
  deriving DecidableEq, Repr

/-- A decided line end: its end unit (R86), its kind, and whether the line is OVERSET (R87). -/
structure LineEnd where
  unit : Nat
  kind : EndKind
  overset : Bool
  deriving DecidableEq, Repr

/-- The line as far as the walk has gone: placements, width of escapements and gaps, word spaces, the nearest placement, and the
last candidate, which fitted. -/
structure Walk where
  count : Nat := 0
  width : Int := 0
  k : Nat := 0
  prev : Option PlaceKind := none
  prevBase : Option BaseGlyph := none
  lastUnit : Nat := 0
  cand : Option LineEnd := none
  deriving DecidableEq, Repr

/-- The walk's outcome: a line end, or the walk where it needs more units. -/
inductive Verdict where
  | ended (e : LineEnd)
  | more (w : Walk)
  deriving DecidableEq, Repr

/-- R84, R85: the end of a line whose walk is cut short: its last candidate, or a FORCED end. -/
def Walk.cut (g : Setting) (w : Walk) (forcedUnit : Nat) : LineEnd :=
  w.cand.getD ⟨forcedUnit, .forced, decide ((g.ctx.measure : Int) < w.width)⟩

/-- R82: the tight width at a candidate end: escapements and gaps before it, its word spaces at the minimum, and the hyphen's
escapement. -/
def Walk.tight (g : Setting) (w : Walk) (hyphen : Int) : Int := w.width + w.k * g.spMin + hyphen

/-- R83: the candidate fits the measure. -/
def Walk.fits (g : Setting) (w : Walk) (hyphen : Int) : Bool := decide (w.tight g hyphen ≤ (g.ctx.measure : Int))

/-- R83, cases 3 and 4: the line end when a candidate does not fit. -/
def Walk.over (w : Walk) (unit : Nat) (kind : EndKind) : LineEnd := w.cand.getD ⟨unit, kind, true⟩

/-- The walk with a cluster placed: its escapement, and the gap of the base glyph before it in its run (R53). -/
def Walk.addCluster (g : Setting) (w : Walk) (c : Cluster) : Walk :=
  { w with
    count := w.count + 1 + c.marks.length,
    width := w.width + (match w.prevBase with
      | some b => gapParts g.F b c.base
      | none => 0) + glyphEsc g.F c.base.work c.base.glyph,
    prev := some .glyph, prevBase := some c.base, lastUnit := c.lastUnit }

/-- The walk with a SPACE or FIXED placement made. -/
def Walk.addSpace (w : Walk) (i : Nat) : Walk :=
  { w with count := w.count + 1, k := w.k + 1, prev := some .space, lastUnit := i }

/-- The walk with a FIXED placement made. -/
def Walk.addFixed (w : Walk) (i : Nat) (k : FixedKind) (esc : Int) : Walk :=
  { w with count := w.count + 1, width := w.width + esc, prev := some (.fixed k), lastUnit := i }

/-- R83, R84: the walk over the items in logical order; it asks for more units at the first cluster that is not settled, that
at which the placement limit is passed among them (log entry 46). -/
def walk (g : Setting) : List ItemAt → Walk → Verdict
  | [], w => .more w
  | x :: rest, w =>
    match x.item with
    | .cluster c =>
      if c.base.settled = false then .more w
      else if 256 < w.count + 1 + c.marks.length then .ended (w.cut g w.lastUnit)
      else walk g rest (w.addCluster g c)
    | .space =>
      match w.prev with
      | none => walk g rest w
      | some p =>
        if p = .space then
          if 256 < w.count + 1 then .ended (w.cut g w.lastUnit) else walk g rest (w.addSpace x.idx)
        else if w.fits g 0 then
          let w' := { w with cand := some ⟨x.idx, .space, false⟩ }
          if 256 < w'.count + 1 then .ended (w'.cut g w.lastUnit) else walk g rest (w'.addSpace x.idx)
        else .ended (w.over x.idx .space)
    | .fixed k =>
      if 256 < w.count + 1 then .ended (w.cut g w.lastUnit)
      else walk g rest (w.addFixed x.idx k (g.fixedEsc k x.unit.work))
    | .brk h =>
      if w.prev = some .glyph then
        if h ∧ 256 < w.count + 1 then .ended (w.cut g w.lastUnit)
        else if w.fits g (if h then g.hyphenEsc x.unit.work else 0) then
          walk g rest { w with cand := some ⟨x.idx, .brk h, false⟩ }
        else .ended (w.over x.idx (.brk h))
      else walk g rest w
    | .ending p =>
      let kind : EndKind := match p with
        | none => .endLine
        | some q => .endPara q
      if w.fits g 0 then .ended ⟨x.idx, kind, false⟩ else .ended (w.over x.idx kind)

/-- The line end of the units read, if they decide it; `closed` says that the span is read out and full (R85). -/
def lineEnd (g : Setting) (carry : Option Carry) (closed : Bool) (read : List ReadUnit) : Option LineEnd :=
  match walk g (itemsOf (clustersOf g.F carry closed read) read) {} with
  | .ended e => some e
  | .more w => if closed then some (w.cut g (read.length - 1)) else none

/-! ### Justification (R88 to R94) -/

/-- The amounts spread over the line's slots, and the line's placing (R89 to R94). -/
structure Fill where
  quad : Quad
  /-- the word spaces sit at the minimum (R93) -/
  atMin : Bool := false
  shrink : Nat := 0
  stretch : Nat := 0
  beyond : Nat := 0
  elong : Nat := 0
  letter : Nat := 0
  loose : Bool := false
  unfilled : Bool := false
  width : Int
  deriving DecidableEq, Repr

/-- R91: the amount a stage places: the smaller of what is left and its capacity. -/
def stage (left slots cap : Nat) : Nat := min left (slots * cap)

/-- R91: the amounts of the three stages for spaces, elongation points and letterspace gaps. -/
def stretchStages (g : Setting) (slack k e n : Nat) : Nat × Nat × Nat :=
  let spaceCap := (g.spMax - g.spOpt).toNat
  match g.ctx.priority with
  | .spacesFirst =>
    let a := stage slack k spaceCap
    let b := stage (slack - a) e g.elongCap
    (a, b, stage (slack - a - b) n g.letterCap)
  | .elongationFirst =>
    let b := stage slack e g.elongCap
    let a := stage (slack - b) k spaceCap
    (a, b, stage (slack - a - b) n g.letterCap)

/-- R90 to R93: how a line of k spaces, e elongation points and n letterspace gaps is filled, given its quad, its natural and
tight widths and whether it is OVERSET. -/
def fillLine (g : Setting) (quad : Quad) (overset : Bool) (nOpt nMin : Int) (k e n : Nat) : Fill :=
  let m : Int := g.ctx.measure
  if overset then { quad := if quad = .justify then .leading else quad, atMin := true, width := nMin }
  else if m < nOpt then { quad := quad, shrink := (nOpt - m).toNat, width := m }
  else if quad = .justify then
    let slack := (m - nOpt).toNat
    let st := stretchStages g slack k e n
    let left := slack - st.1 - st.2.1 - st.2.2
    let f : Fill := { quad := quad, stretch := st.1, elong := st.2.1, letter := st.2.2, width := m }
    if left = 0 then f
    else if 0 < k then { f with beyond := left, loose := true }
    else { f with quad := .leading, unfilled := true, width := m - left }
  else { quad := quad, width := nOpt }

/-- R90 to R93: the justified width of word space i. -/
def Fill.space (g : Setting) (f : Fill) (k i : Nat) : Int :=
  if f.atMin then g.spMin
  else g.spOpt - (share f.shrink k i : Nat) + (share f.stretch k i : Nat) + (share f.beyond k i : Nat)

/-- R90, R92, R93: the per-space adjustment, the remainder count and the remainder step of the record. A JUSTIFY line marked OVERSET
records what R93 gives a quadded one (log entry 38). -/
def Fill.adjustment (g : Setting) (f : Fill) (k : Nat) : Int × Nat × Int :=
  if f.atMin then (-(g.spOpt - g.spMin), 0, 1)
  else if f.shrink ≠ 0 then (-((f.shrink / k : Nat) : Int), f.shrink % k, -1)
  else if k = 0 then (0, 0, 1)
  else (((f.stretch / k + f.beyond / k : Nat) : Int), if f.beyond ≠ 0 then f.beyond % k else f.stretch % k, 1)

/-- R94: the left offset of a line. -/
def leftOffset (justified : Bool) (quad : Quad) (para : Dir) (d : Int) : Int :=
  if justified then 0
  else match quad, para with
    | .leading, .ltr => 0
    | .leading, .rtl => d
    | .trailing, .ltr => d
    | .trailing, .rtl => 0
    | .centre, _ => d / 2
    | .justify, _ => 0

end Sys2Proof.Machine
end

