-- ==== Sys2Proof/Machine/Layout.lean ====
section
/-! DEFINITION. The line record (R86, R95 to R101): the placements of a decided line, their visual order and absolute positions,
the marks and the header. -/

namespace Sys2Proof.Machine

/-! ### Pieces of the line (R56, R86) -/

/-- What the line sets, in logical order. -/
inductive Piece where
  /-- a cluster with the marks that lie within the line, and the next base glyph of its run within the line, if any -/
  | cluster (b : BaseGlyph) (marks : List Letter) (next : Option BaseGlyph)
  | space (idx : Nat) (u : ReadUnit)
  | fixed (idx : Nat) (u : ReadUnit) (k : FixedKind)
  | hyphen (idx : Nat) (u : ReadUnit)
  deriving DecidableEq, Repr

/-- R86: a unit index lies within the line's placements: before the end unit, or up to it for a FORCED line. -/
def LineEnd.holds (e : LineEnd) (i : Nat) : Bool := if e.kind = .forced then decide (i ≤ e.unit) else decide (i < e.unit)

/-- The items the line sets: those within it that set something, less the SPACEs before its first placement (R86). -/
def placedItems (e : LineEnd) (items : List ItemAt) : List ItemAt :=
  (items.filter (fun x => e.holds x.idx && (match x.item with
    | .brk _ => false
    | .ending _ => false
    | _ => true))).dropWhile (fun x => x.item == .space)

/-- The pieces of the line, less its hyphen; a base glyph owns a gap when the next item set is a cluster of its run (R53). -/
def piecesOf (e : LineEnd) : List ItemAt → List Piece
  | [] => []
  | x :: rest =>
    match x.item with
    | .cluster c =>
      let next := match rest with
        | y :: _ => (match y.item with
          | .cluster d => if d.base.run = c.base.run then some d.base else none
          | _ => none)
        | [] => none
      .cluster c.base (c.marks.filter (fun m => e.holds m.idx)) next :: piecesOf e rest
    | .space => .space x.idx x.unit :: piecesOf e rest
    | .fixed k => .fixed x.idx x.unit k :: piecesOf e rest
    | _ => piecesOf e rest

/-- The pieces of a line with its hyphen (R15, R86). -/
def linePieces (e : LineEnd) (items : List ItemAt) : List Piece :=
  piecesOf e (placedItems e items) ++
    (match e.kind with
    | .brk true => (items.filter (fun x => x.idx == e.unit)).map (fun x => Piece.hyphen x.idx x.unit)
    | _ => [])

/-- The pieces that are word spaces: k of R82. -/
def countSpaces (ps : List Piece) : Nat := (ps.filter (fun p => match p with
  | .space _ _ => true
  | _ => false)).length

/-- The gaps of a class in the line: e and g of R54. -/
def countGaps (cls : GapClass) (ps : List Piece) : Nat := (ps.filter (fun p => match p with
  | .cluster b _ (some _) => b.gapClass == cls
  | _ => false)).length

/-- R82: the width of a piece with its gap's fixed parts, a word space counting `sp`. -/
def Piece.width (g : Setting) (sp : Int) : Piece → Int
  | .cluster b _ next => glyphEsc g.F b.work b.glyph + (match next with
      | some d => gapParts g.F b d
      | none => 0)
  | .space _ _ => sp
  | .fixed _ u k => g.fixedEsc k u.work
  | .hyphen _ u => g.hyphenEsc u.work

/-- R82: the width of the line with every word space at `sp`. -/
def naturalWidth (g : Setting) (sp : Int) (ps : List Piece) : Int := (ps.map (fun p => p.width g sp)).sum

/-- R9: a piece uses a face value out of its range. -/
def Piece.clamped (g : Setting) : Piece → Bool
  | .cluster b marks next =>
    glyphClamped g.F b.work b.glyph ||
      (match next with
      | some d => outside (-2048) 2047 (kernOf (g.F b.work.drawn.pos) b.glyph d.glyph)
      | none => false) ||
      marks.zipIdx.any (fun p => (markOffset g.F b p.1 (earlierOfKind g.F (marks.take p.2) p.1)).2.2)
  | .space _ _ => false
  | .fixed _ u k => k == .figure && outside 0 4095 (g.F u.work.drawn.pos).figure
  | .hyphen _ u => glyphClamped g.F u.work (g.hyphen u.work).1

/-- R41: a piece set the missing glyph for an absent code. -/
def Piece.missing (g : Setting) : Piece → Bool
  | .cluster b _ _ => b.absent
  | .hyphen _ u => (g.hyphen u.work).2
  | _ => false

/-! ### Placements (R100) -/

/-- How far the laying of placements has gone: the placement index and the places among the word spaces, the elongation points
and the letterspace gaps. -/
structure Cursor where
  at_ : Nat := 0
  space : Nat := 0
  elong : Nat := 0
  letter : Nat := 0
  deriving DecidableEq, Repr

/-- A placement in a context, its position across the film not yet known. -/
def placeIn (w : Working) (run : Nat) (kind : PlaceKind) (src : BitVec 32) : Placement :=
  { kind := kind, run := run, word := run, dir := w.dir, size := w.size, setw := w.eff, src := src }

/-- R54, R91: the elongation part and the letterspace addition of the gap of a cluster. -/
def gapAdded (f : Fill) (e n : Nat) (c : Cursor) (b : BaseGlyph) : Nat × Nat :=
  match b.gapClass with
  | .elongation => (share f.elong e c.elong, 0)
  | .letterspace => (0, share f.letter n c.letter)

/-- The placements of a cluster: its base with its whole gap, and its marks (R100). -/
def clusterPlaces (g : Setting) (first : BitVec 32) (f : Fill) (e n : Nat) (c : Cursor) (b : BaseGlyph) (marks : List Letter)
    (next : Option BaseGlyph) : List Placement :=
  let pos := b.work.drawn.pos
  let base := { placeIn b.work b.run .glyph (first + BitVec.ofNat 32 b.first) with
    pos := some pos, glyph := some b.glyph, esc := glyphEsc g.F b.work b.glyph, joinsPrev := b.jp, joinsNext := b.jn }
  let base := match next with
    | none => base
    | some d =>
      let added := gapAdded f e n c b
      { base with gap := gapParts g.F b d + (added.1 + added.2 : Nat), elong := (added.1 : Nat), gapClass := some b.gapClass }
  base :: marks.zipIdx.map (fun p =>
    let o := markOffset g.F b p.1 (earlierOfKind g.F (marks.take p.2) p.1)
    { placeIn p.1.work b.run .mark (first + BitVec.ofNat 32 p.1.idx) with
      dir := b.work.dir, pos := some pos, glyph := some p.1.entry.iso, base := some c.at_, xoff := o.1, yoff := o.2.1 })

/-- The placements of the line in logical order (R100); k, e and n count its spaces, elongation points and letterspace gaps. -/
def layPieces (g : Setting) (first : BitVec 32) (f : Fill) (k e n : Nat) : List Piece → Cursor → List Placement
  | [], _ => []
  | p :: rest, c =>
    match p with
    | .cluster b marks next =>
      let point := match next with
        | none => (0, 0)
        | some _ => (match b.gapClass with
          | .elongation => (1, 0)
          | .letterspace => (0, 1))
      clusterPlaces g first f e n c b marks next ++
        layPieces g first f k e n rest { c with
          at_ := c.at_ + 1 + marks.length, elong := c.elong + point.1, letter := c.letter + point.2 }
    | .space i u =>
      { placeIn u.work u.run .space (first + BitVec.ofNat 32 i) with esc := f.space g k c.space } ::
        layPieces g first f k e n rest { c with at_ := c.at_ + 1, space := c.space + 1 }
    | .fixed i u x =>
      { placeIn u.work u.run (.fixed x) (first + BitVec.ofNat 32 i) with
        esc := g.fixedEsc x u.work, pos := if x = .figure then some u.work.drawn.pos else none } ::
        layPieces g first f k e n rest { c with at_ := c.at_ + 1 }
    | .hyphen i u =>
      { placeIn u.work u.run .hyphen (first + BitVec.ofNat 32 i) with
        esc := g.hyphenEsc u.work, pos := some u.work.drawn.pos, glyph := some (g.hyphen u.work).1 } ::
        layPieces g first f k e n rest { c with at_ := c.at_ + 1 }

/-! ### Visual order and positions (R95 to R97) -/

/-- R95: the elements of a line, in logical order: every placement but the marks, with its placement index. -/
def elementsOf (ps : List Placement) : List (Nat × Placement) :=
  (ps.zipIdx.filter (fun p => p.1.kind != .mark)).map (fun p => (p.2, p.1))

/-- R95: the groups: maximal sequences of consecutive elements of one direction. -/
def groupsOf : List (Nat × Placement) → List (List (Nat × Placement))
  | [] => []
  | x :: rest =>
    match groupsOf rest with
    | (y :: ys) :: gs => if x.2.dir = y.2.dir then (x :: y :: ys) :: gs else [x] :: (y :: ys) :: gs
    | gs => [x] :: gs

/-- R96: the elements left to right. -/
def visualOrder (para : Dir) (els : List (Nat × Placement)) : List (Nat × Placement) :=
  let gs := (groupsOf els).map (fun g => match g with
    | x :: _ => if x.2.dir = .rtl then g.reverse else g
    | [] => g)
  (if para = .rtl then gs.reverse else gs).flatten

/-- R95: an element's width. -/
def Placement.width (p : Placement) : Int := p.esc + p.gap

/-- R97: each element's left edge, from a starting position rightward. -/
def leftEdges : Int → List (Nat × Placement) → List (Nat × Int)
  | _, [] => []
  | x, (i, p) :: rest => (i, x) :: leftEdges (x + p.width) rest

/-- R97: an element's origin from its left edge: past its gap for a cluster of an RTL run. -/
def Placement.origin (p : Placement) (edge : Int) : Int := if p.kind = .glyph ∧ p.dir = .rtl then edge + p.gap else edge

/-- R97: the absolute x of placement i, from the left edges; a mark's is its base's plus its offset. -/
def absX (ps : List Placement) (edges : List (Nat × Int)) (i : Nat) (p : Placement) : Int :=
  let at_ (j : Nat) : Int :=
    match edges.find? (fun e => e.1 == j), ps[j]? with
    | some e, some q => q.origin e.2
    | _, _ => 0
  match p.base with
  | some b => at_ b + p.xoff
  | none => at_ i

/-- R97: a placement with its absolute x and, for the owner of an elongation point, that of its extender. -/
def Placement.positioned (p : Placement) (x : Int) : Placement :=
  { p with x := x, extX :=
      if p.gapClass = some .elongation then some (if p.dir = .ltr then x + p.esc else x - p.elong) else none }

/-- R97: the placements with their positions, the line beginning at `start` across the film. -/
def positions (para : Dir) (start : Int) (ps : List Placement) : List Placement :=
  let edges := leftEdges start (visualOrder para (elementsOf ps))
  ps.zipIdx.map (fun p => p.1.positioned (absX ps edges p.2 p.1))

/-! ### The line record (R87, R88, R98, R99) -/

/-- R88: the quad of a line. -/
def lineQuad (ctx : Context) (para : Quad) : EndKind → Quad
  | .space => ctx.fullQuad
  | .brk _ => ctx.fullQuad
  | .endLine => para
  | .endPara q => q
  | .forced => para

/-- R87: the line ends at an END_LINE or END_PARA. -/
def EndKind.isLast : EndKind → Bool
  | .endLine => true
  | .endPara _ => true
  | _ => false

/-- The line a composition delivers (R98, R99), for the channel's next baseline, line counter and consumed-unit count. -/
def buildLine (g : Setting) (c : Composition) (e : LineEnd) (next : Nat) (counter : BitVec 16) (consumed : BitVec 32) : Line :=
  let items := itemsOf (clustersOf g.F c.carry (c.read.length == c.spanLen && decide (4096 ≤ c.spanLen)) c.read) c.read
  let pieces := linePieces e items
  let k := countSpaces pieces
  let el := countGaps .elongation pieces
  let le := countGaps .letterspace pieces
  let quad := lineQuad g.ctx ((c.read[e.unit]?.map (·.work.quad)).getD c.work.quad) e.kind
  let nOpt := naturalWidth g g.spOpt pieces
  let nMin := naturalWidth g g.spMin pieces
  let f := fillLine g quad e.overset nOpt nMin k el le
  let d : Int := g.ctx.measure - f.width
  let left := leftOffset (quad = .justify && !e.overset && !f.unfilled) f.quad g.ctx.paraDir d
  let adj := f.adjustment g k
  let places := positions g.ctx.paraDir (g.ctx.indent + left) (layPieces g consumed f k el le pieces {})
  let passed := c.read.take (e.unit + 1)
  let marks : Marks := {
    overset := e.overset
    loose := f.loose
    unfilled := f.unfilled
    hyphenated := e.kind == .brk true
    forced := e.kind == .forced
    last := e.kind.isLast
    substituted := c.startSubst || passed.any (·.subst)
    missing := pieces.any (fun p => p.missing g)
    clamped := c.startClamped || passed.any (·.clamped) || pieces.any (fun p => p.clamped g) ||
      decide (4194303 < next + g.ctx.leading)
    marksDropped := items.any (fun x => match x.item with
      | .cluster cl => cl.dropped.any (fun i => decide (i ≤ e.unit))
      | _ => false) }
  { header := {
      channel := c.channel, lineNumber := counter, tag := (c.read[e.unit]?.map (·.tag)).getD 0
      baseline := advance next g.ctx.leading, indent := g.ctx.indent, measure := g.ctx.measure, paraDir := g.ctx.paraDir
      quad := f.quad, width := f.width, nOpt := nOpt, leftOffset := left, shortfall := d, setw := g.setw
      k := k, adjust := adj.1, remCount := adj.2.1, remStep := adj.2.2
      e := el, elongAdded := f.elong, g := le, letterAdded := f.letter, marks := marks
      firstIndex := consumed, breakIndex := consumed + BitVec.ofNat 32 (e.unit + 1), placements := places.length }
    used := c.used
    placements := places
    visual := (visualOrder g.ctx.paraDir (elementsOf places)).map (·.1) }

/-- R45: the join carry after a delivered line (log entry 16). -/
def carryAfter (F : Fin 8 → Face) (c : Composition) (e : LineEnd) : Option Carry :=
  let inRun := match e.kind with
    | .brk _ => true
    | .forced =>
      (match c.read[e.unit]?, c.read[e.unit + 1]? with
      | some a, some b => !a.endsRun && !b.endsRun && a.run == b.run
      | _, _ => false)
    | _ => false
  let lastDual := match ((lettersOf F c.read).filter (fun l => l.entry.cls != 3 && decide (l.idx ≤ e.unit))).getLast? with
    | some l => l.entry.cls == 2
    | none => false
  match c.read[e.unit]? with
  | some u => if inRun && lastDual then some ⟨u.work.drawn.face, u.work.dir⟩ else none
  | none => none

end Sys2Proof.Machine
end

