-- ==== Sys2Proof/Config.lean ====
section
/-! DEFINITION. What the book leaves open: the free values. Each is an uninterpreted constant, so a claim about the
model holds whatever its value is (notes/assumptions/2.md). -/

namespace Sys2Proof

/-- The value of a store byte whose content the book calls undefined (R119, R131, R132): a free value for each event that
leaves bytes undefined (its serial number) and each byte address. Log entry 2. -/
opaque Config.undefinedByte : Nat → Nat → Byte

/-- Which of two things that "may be taken in either order" is taken first (R128, R177, section 12.4), for each serial number:
true takes the one the model names first. Log entry 2. -/
opaque Config.eitherOrder : Nat → Bool

/-- Whether the STORE_DONE of a STORE_ABORT still carries the error kinds that the order clears: R132 and R137 do not say.
Log entry 20. -/
opaque Config.abortReportsKinds : Bool

/-- How many of the bytes that stand before the last of an outbound record the unit acknowledges while no command comes, for each
serial number: R157 lets it take as long as it will over each. Log entry 58. -/
opaque Config.unitPace : Nat → Nat

/-- How many of the bytes that stand before the last of a return go out on the transmit pair while no command comes, for each serial
number. Log entry 58. -/
opaque Config.linkPace : Nat → Nat

end Sys2Proof
end

