-- ==== Sys2Proof/Machine/Flags.lean ====
section
/-! DEFINITION. The codes of named values, the mark word and the sets of flags that answers and notices carry
(sections 11.3 to 11.6, R187), and the bodies of notices, strike port records and returns. -/

namespace Sys2Proof.Machine

/-! ### Codes -/

/-- LTR 0, RTL 1 (section 11.4). -/
def Dir.code : Dir → Nat
  | .ltr => 0
  | .rtl => 1

/-- LEADING 0, TRAILING 1, CENTRE 2, JUSTIFY 3 (section 11.4). -/
def Quad.code : Quad → Nat
  | .leading => 0
  | .trailing => 1
  | .centre => 2
  | .justify => 3

/-- SPACES_FIRST 0, ELONGATION_FIRST 1 (section 11.4). -/
def Priority.code : Priority → Nat
  | .spacesFirst => 0
  | .elongationFirst => 1

/-- The place of a channel state in the table of R66 (R187). -/
def ChannelState.code : ChannelState → Nat
  | .idle => 0
  | .pending => 1
  | .composing => 2
  | .mountWait => 3
  | .held _ => 4

/-- FACE 1, REACH 2 (section 11.6). -/
def HeldReason.code : HeldReason → Nat
  | .face => 1
  | .reach => 2

/-- The held reason of a channel, none unless HELD (R57). -/
def ChannelState.reason : ChannelState → Option HeldReason
  | .held r => some r
  | _ => none

/-- The place of an entry state in the table of R18 (R187). -/
def FaceState.code : FaceState → Nat
  | .undefined => 0
  | .defined => 1
  | .withdrawing => 2

/-- CHECK 1, FORMAT 2, TOO_LARGE 3 (section 11.6). -/
def MountCause.code : MountCause → Nat
  | .check => 1
  | .format => 2
  | .tooLarge => 3

/-- The place of a position's state in the table of R26 (R187). -/
def MountState.code : MountState → Nat
  | .empty => 0
  | .loading _ => 1
  | .mounted _ => 2
  | .failed _ _ => 3

/-- The face a position holds (R26). -/
def MountState.face : MountState → Option (Fin 128)
  | .empty => none
  | .loading f => some f
  | .mounted f => some f
  | .failed f _ => some f

/-- The failure cause a position holds (R26). -/
def MountState.cause : MountState → Option MountCause
  | .failed _ c => some c
  | _ => none

/-- The place of a requester in the list of R108 (R187). -/
def Requester.code : Requester → Nat
  | .mount => 0
  | .strike => 1
  | .sequencer => 2
  | .link => 3

/-- The place of a sequencer state in the table of R118 (R187). -/
def SqState.code : SqState → Nat
  | .idle => 0
  | .programming => 1
  | .erasing => 2
  | .eraseSuspended => 3
  | .checking => 4
  | .locked => 5

/-- FETCH_FIRST 0, ERASE_FIRST 1 (section 11.4). -/
def SuspendMode.code : SuspendMode → Nat
  | .fetchFirst => 0
  | .eraseFirst => 1

/-- The place of an EX state in the table of R141 (R187). -/
def ExState.code : ExState → Nat
  | .unregistered => 0
  | .idle => 1
  | .calibrating => 2
  | .exposing => 3
  | .cutting => 4
  | .held => 5
  | .faulted => 6

/-- TIMEOUT 1, LAMP 2, TRANSPORT 3, FILM_OUT 4 (section 11.6). -/
def FaultCause.code : FaultCause → Nat
  | .timeout => 1
  | .lamp => 2
  | .transport => 3
  | .filmOut => 4

/-- REACH 1, FAULT 2, TIMEOUT 3 (section 11.5). -/
def LossReason.code : LossReason → Nat
  | .reach => 1
  | .fault => 2
  | .timeout => 3

/-- DONE 0, LOCKED 1, ABORTED 2 (section 11.6). -/
def StoreOutcome.code : StoreOutcome → Nat
  | .done => 0
  | .locked => 1
  | .aborted => 2

/-- NONE 0, PROGRAM 1, ERASE 2, BLANK 3 (section 11.6). -/
def StoreOp.code : StoreOp → Nat
  | .none => 0
  | .program _ _ _ => 1
  | .erase _ _ => 2
  | .blank _ => 3

/-- The fault kind of the unit's second FAULT byte, TRANSPORT for a byte in no table (R159, section 11.8). -/
def faultKind (b : Byte) : FaultCause :=
  if b = 1 then .lamp else if b = 3 then .filmOut else .transport

/-- Reasons of a refusal (R175). -/
inductive Reason where
  | check
  | unknown
  | form
  | range
  | state
  | busy
  | full
  | mapLocked
  | overlap
  | storeLocked
  | protect
  | inUse
  deriving DecidableEq, Repr

/-- The reason codes of section 11.3. -/
def Reason.code : Reason → Nat
  | .check => 1
  | .unknown => 2
  | .form => 3
  | .range => 4
  | .state => 5
  | .busy => 6
  | .full => 7
  | .mapLocked => 8
  | .overlap => 9
  | .storeLocked => 10
  | .protect => 11
  | .inUse => 12

/-! ### Flag words and sets -/

/-- The number whose bits, from bit 0, are the flags given. -/
def bits : List Bool → Nat
  | [] => 0
  | b :: bs => (if b then 1 else 0) + 2 * bits bs

/-- The marks word: OVERSET is bit 0, CLIPPED bit 11 (section 11.5). -/
def Marks.word (m : Marks) : Nat :=
  bits [m.overset, m.loose, m.unfilled, m.hyphenated, m.forced, m.last, m.substituted, m.missing, m.clamped, m.marksDropped,
    m.damaged, m.clipped]

/-- The error kinds byte: RANGE bit 0, PROTECT 1, IN_USE 2, PROGRAM_FAIL 3 (section 11.6). -/
def ErrorKinds.byte (k : ErrorKinds) : Nat := bits [k.range, k.protect, k.inUse, k.programFail]

/-- No error kind is recorded. -/
def ErrorKinds.isEmpty (k : ErrorKinds) : Bool := k == {}

/-- The causes byte of the reset record: POWER bit 0, LINE 1, ORDER 2 (section 11.6). -/
def ResetRecord.causes (r : ResetRecord) : Nat := bits [r.power, r.line, r.order]

/-- R187: a set of channels, channel i at bit i. -/
def channelSetByte (cs : List (Fin 4)) : Nat := bits (fours.map (fun c => decide (c ∈ cs)))

/-! ### Record and notice bodies -/

/-- The reset record as RESET_DONE carries it (section 11.6). -/
def ResetRecord.bytes (r : ResetRecord) : Bytes :=
  u8 r.causes ++ u8 r.count ++
    (match r.interrupted with
    | .none => u8 0 ++ u16 0
    | .program p => u8 1 ++ u16 p
    | .erase b => u8 2 ++ u16 b)

/-- A fault record's operation with its channel and line number, 255 and 65535 unless it is a line (section 11.6). -/
def FaultOp.bytes : FaultOp → Bytes
  | .none => u8 0 ++ u8 255 ++ u16 65535
  | .line c n => u8 1 ++ u8 c.val ++ u16 n.toNat
  | .calibrate => u8 2 ++ u8 255 ++ u16 65535
  | .cut => u8 3 ++ u8 255 ++ u16 65535

/-- The 65-byte line header of section 11.5. -/
def LineHeader.bytes (h : LineHeader) : Bytes :=
  u8 h.channel.val ++ [h.tag] ++ u16 h.lineNumber.toNat ++ u32 h.baseline ++ u16 h.indent ++ u16 h.measure ++
    u8 h.paraDir.code ++ u8 h.quad.code ++ u16 h.setw ++ i32 h.width ++ i32 h.nOpt ++ i32 h.leftOffset ++ i32 h.shortfall ++
    u16 h.k ++ i32 h.adjust ++ u16 h.remCount ++ i8 h.remStep ++ u16 h.e ++ u32 h.elongAdded ++ u16 h.g ++ u32 h.letterAdded ++
    u16 h.marks.word ++ u32 h.firstIndex.toNat ++ u32 h.breakIndex.toNat ++ u16 h.placements

/-- The eight operation bytes of a STORE_DONE (section 11.6). -/
def StoreOp.bytes : StoreOp → Bytes
  | .none => List.replicate 8 0
  | .program p d f => u16 p ++ u16 d ++ opt16 (f.map (·.1)) ++ opt16 (f.map (·.2))
  | .erase b n => u8 b ++ u8 n ++ List.replicate 6 0
  | .blank Option.none => List.replicate 8 0
  | .blank (Option.some (p, o, v)) => u8 1 ++ u16 p ++ u16 o ++ [v] ++ [0, 0]

/-- The kind byte of a notice (R185). -/
def Notice.kind : Notice → Byte
  | .lineSet _ => 0xC0
  | .lineExposed _ _ _ => 0xC1
  | .lineLost _ _ => 0xC2
  | .exposeFault _ _ _ => 0xC3
  | .channelHeld _ _ _ _ => 0xC4
  | .mountDone _ _ _ _ _ => 0xC5
  | .mountFailed _ _ _ _ => 0xC6
  | .faceRetired _ _ => 0xC7
  | .storeDone _ _ _ => 0xC8
  | .storeData _ _ _ _ => 0xC9
  | .resetDone _ => 0xCA

/-- R168: the target of a notice, the channel it concerns, or 0. The notices of a line or of a channel concern its channel, an
EXPOSE_FAULT that ended a line among them, and no other notice concerns one (log entry 56). -/
def Notice.target : Notice → Byte
  | .lineSet h => BitVec.ofNat 8 h.channel.val
  | .lineExposed h _ _ => BitVec.ofNat 8 h.channel.val
  | .lineLost h _ => BitVec.ofNat 8 h.channel.val
  | .exposeFault _ (.line c _) _ => BitVec.ofNat 8 c.val
  | .channelHeld c _ _ _ => BitVec.ofNat 8 c.val
  | _ => 0

/-- The body of a notice (sections 11.5 and 11.6). -/
def Notice.body : Notice → Bytes
  | .lineSet h => h.bytes
  | .lineExposed h t p => h.bytes ++ i32 t ++ u16 p.toNat
  | .lineLost h r => h.bytes ++ u8 r.code
  | .exposeFault c op r => u8 c.code ++ op.bytes ++ yesNo r
  | .channelHeld c r n k => u8 c.val ++ u8 r.code ++ u32 n.toNat ++ u16 k.toNat
  | .mountDone f p e n ev => u8 f.val ++ u8 p.val ++ u16 e ++ u16 n ++ opt8 (ev.map (·.val))
  | .mountFailed f p c ev => u8 f.val ++ u8 p.val ++ u8 c.code ++ opt8 (ev.map (·.val))
  | .faceRetired f p => u8 f.val ++ u8 p.val
  | .storeDone op o k => u8 op.code ++ u8 o.code ++ u8 k.byte ++ op.bytes
  | .storeData t p o d => [t] ++ u16 p ++ u16 o ++ u16 d.length ++ d
  | .resetDone r => r.bytes

/-- The bytes of an outbound strike port record (section 11.8). -/
def OutRecord.bytes : OutRecord → Bytes
  | .lineBegin t v => [0x61] ++ [t] ++ i32 v
  | .strike x dy z s m => [0x62] ++ u16 x.toNat ++ i32 dy ++ u16 z ++ u16 s ++ u16 m.length ++ m
  | .extend x w z m => [0x63] ++ u16 x.toNat ++ u16 w.toNat ++ u16 z ++ u16 m.length ++ m
  | .lineEnd => [0x64]
  | .calibrate => [0x65]
  | .cut a => [0x66] ++ u32 a

end Sys2Proof.Machine
end

