-- ==== Sys2Proof/Machine/Ops.lean ====
section
/-! DEFINITION. The shared operations over the state: the notice queue and the transmitter, the store's bytes, mount references
and requests, channel states and holds, the bank table and the fetch queue, and the resets. -/

namespace Sys2Proof.Machine

/-! ### Bytes that go out one at a time -/

/-- Of `len` bytes the first `sofar` have gone, and up to `n` more go, but never the last: its going is an event of its own. -/
def gone (len sofar n : Nat) : Nat := min (sofar + n) (len - 1)

/-! ### Notices and returns (R176, R177) -/

/-- R177: a notice joins the queue, or is dropped and counted when 32 wait. -/
def Olu.post (n : Notice) (o : Olu) : Olu :=
  if o.notices.length < 32 then { o with notices := o.notices ++ [n] } else { o with lost := min 255 (o.lost + 1) }

/-- A block posts a notice (R177). -/
def State.post (n : Notice) (s : State) : State := { s with olu := s.olu.post n }

/-- A block posts notices, first to last. -/
def State.postAll (ns : List Notice) (s : State) : State := ns.foldl (fun s n => s.post n) s

/-- R177: the return made of a notice as its sending begins, the lost-notice count in place of a tag. -/
def Notice.toReturn (lost : Nat) (n : Notice) : Return := ⟨n.kind, BitVec.ofNat 8 lost, n.target, n.body⟩

/-- R176: a free transmitter takes the answer in the answer slot, or else the notice at the head of the queue. It sends nothing
in reset or start-up (R179, R182). -/
def Olu.transmit (o : Olu) : Olu :=
  if o.phase = .running ∧ o.sending = none then
    match o.answerSlot with
    | some r => { o with sending := some r, answerSlot := none }
    | none =>
      match o.notices with
      | [] => o
      | n :: rest => { o with sending := some (n.toReturn o.lost), lost := 0, notices := rest }
  else o

/-- What every command ends with: the transmitter, if free, chooses its next return, whose first byte is then in progress (R176). -/
def State.settle (s : State) : State := { s with olu := s.olu.transmit }

/-- The bytes of a return as a frame (section 11.2, R168). -/
def Return.bytes (r : Return) : Bytes :=
  let five := [r.kind, r.tag, r.target] ++ u16 r.body.length
  [0xE5] ++ five ++ [headerCheck five] ++ r.body ++ u16 (bodyCheck r.body).toNat

/-- How many bytes the frame of a return has (section 11.2). -/
def Return.length (r : Return) : Nat := r.body.length + 9

/-- R176: the byte in progress on the transmit pair; none while the transmitter is idle. -/
def Olu.txByte (o : Olu) : Option Byte :=
  match o.sending with
  | none => none
  | some r => r.bytes[o.sent]?

/-- R176: while no command comes, bytes of the return being sent go out, any number of them before its last: a free number (log
entry 58). The last byte's going is ANSWER_SENT or NOTICE_SENT. -/
def State.linkSends (s : State) : State :=
  match s.olu.sending with
  | none => s
  | some r =>
    if s.olu.sent + 1 < r.length then
      { s with olu := { s.olu with sent := gone r.length s.olu.sent (Config.linkPace s.serial) }, serial := s.serial + 1 }
    else s

/-- R171: attention is low while the receiver hunts, a pulse runs, or the part is in reset or start-up. -/
def Olu.attentionLow (o : Olu) : Bool :=
  (match o.receiver with
    | .hunting _ => true
    | _ => false) || o.pulse.isSome || o.phase != .running

/-- R172: how many of the two frame stores are occupied. -/
def Olu.storesOccupied (o : Olu) : Nat :=
  o.frames.length + (if o.inHand.isSome then 1 else 0) +
    (match o.receiver with
    | .body _ _ _ _ _ => 1
    | _ => 0)

/-- R172: ready-to-receive is high while a frame store is free, outside reset and start-up. -/
def Olu.readyHigh (o : Olu) : Bool := o.phase == .running && decide (o.storesOccupied < 2)

/-! ### The outbound lane (R157) -/

/-- R157: the byte presented on the outbound lane, which the unit has not acknowledged; none while the lane is idle. -/
def Sa.presented (a : Sa) : Option Byte :=
  match a.lane with
  | [] => none
  | r :: _ => r.bytes[a.acked]?

/-- R157: the outbound lane's strobe is raised while a byte awaits its acknowledgement, and low while the lane is idle. -/
def Sa.strobeHigh (a : Sa) : Bool := a.presented.isSome

/-- R157: while no command comes, the unit acknowledges as many of the bytes before the record's last as it will, or none, each
acknowledgement bringing the next byte: a free number (log entry 58). The last byte's acknowledgement is RECORD_SENT (R158). -/
def State.unitAcks (s : State) : State :=
  match s.sa.lane with
  | [] => s
  | r :: _ =>
    if s.sa.acked + 1 < r.bytes.length then
      { s with sa := { s.sa with acked := gone r.bytes.length s.sa.acked (Config.unitPace s.serial) }, serial := s.serial + 1 }
    else s

/-- The lane idle with its strobe low, a byte that awaited its acknowledgement withdrawn (R157, R166). -/
def Sa.idleLane (a : Sa) : Sa := { a with lane := [], acked := 0 }

/-! ### Answers (R174, R175, R186) -/

/-- What an owning block answers: it accepts with the results' bytes, refuses with a reason and detail, or answers later (a
STORE_READ whose request is held, R174). -/
inductive Reply where
  | accept (results : Bytes)
  | refuse (r : Reason) (detail : Nat)
  | later
  deriving DecidableEq, Repr

/-- A refusal with detail 0 (R186). -/
def Reply.no (r : Reason) : Reply := .refuse r 0

/-- The answer frame of a reply to the order in hand (R186). -/
def Reply.toReturn (h : Head) : Reply → Option Return
  | .accept b => some ⟨0x80, h.tag, h.target, h.kind :: b⟩
  | .refuse r d => some ⟨0x81, h.tag, h.target, h.kind :: (u8 r.code ++ u16 d)⟩
  | .later => none

/-- R174: the block's answer to the order in hand goes into the answer slot. -/
def State.answer (r : Reply) (s : State) : State :=
  match s.olu.inHand with
  | some h =>
    match r.toReturn h with
    | some a => { s with olu := { s.olu with answerSlot := some a } }
    | none => s
  | none => s

/-! ### The master store's bytes (R102, R103) -/

/-- The content of the store at a byte address 4096·page + offset: 255 where nothing is listed (log entry 1). -/
def readByte (m : List Host.Cell) (a : Nat) : Byte :=
  match m.find? (fun c => c.1 == a) with
  | some c => c.2
  | none => 255

/-- `n` bytes of the store from an address upward. -/
def readBytes (m : List Host.Cell) (a : Nat) : Nat → Bytes
  | 0 => []
  | n + 1 => readByte m a :: readBytes m (a + 1) n

/-- The listed cells of `n` addresses from `a`, holding `f`. -/
def cellsOf (f : Nat → Byte) (a : Nat) : Nat → List Host.Cell
  | 0 => []
  | n + 1 => if f a = 255 then cellsOf f (a + 1) n else (a, f a) :: cellsOf f (a + 1) n

/-- The store with the `n` bytes from `a` replaced by `f`. -/
def spliceBytes (m : List Host.Cell) (a n : Nat) (f : Nat → Byte) : List Host.Cell :=
  m.filter (fun c => decide (c.1 < a)) ++ cellsOf f a n ++ m.filter (fun c => decide (a + n ≤ c.1))

/-- The canonical form of the store: addresses rise strictly and no listed byte is 255. -/
def Memory.wf (m : List Host.Cell) : Bool := decide (m.Pairwise (fun a b => a.1 < b.1)) && m.all (fun c => c.2 != 255)

/-- A program line's bytes written (R103). -/
def State.writeLine (l : ProgLine) (s : State) : State :=
  let a := 4096 * l.page + l.offset
  { s with store := spliceBytes s.store a 256 (fun x => l.data.getD (x - a) 255) }

/-- An erase block's bytes all set to 255 (R102, R103). -/
def State.blankBlock (b : Nat) (s : State) : State :=
  { s with store := spliceBytes s.store (262144 * b) 262144 (fun _ => 255) }

/-- `n` bytes from `a` left undefined: free values, fresh at each event (log entry 10). -/
def State.undefine (a n : Nat) (s : State) : State :=
  { s with store := spliceBytes s.store a n (Config.undefinedByte s.serial), serial := s.serial + 1 }

/-! ### Faces, positions and references (chapter 2) -/

/-- The position a face holds, in whatever state (R18, R26). -/
def Fdm.posOf (d : Fdm) (f : Fin 128) : Option (Fin 8) := eights.find? (fun p => d.pos[p].state.face == some f)

/-- A position's new content. -/
def Fdm.setPos (d : Fdm) (p : Fin 8) (x : MountPos) : Fdm := { d with pos := setAt d.pos p x }

/-- A face's entry becomes UNDEFINED with base and size 0 (R20, R21). -/
def Fdm.undefineFace (d : Fdm) (f : Fin 128) : Fdm := { d with dir := setAt d.dir f {} }

/-- A position becomes EMPTY, keeping its place in the recency list (R20, R28). -/
def Fdm.emptyPos (d : Fdm) (p : Fin 8) : Fdm := d.setPos p {}

/-- A position moves to the most recent end (R28). -/
def Fdm.touch (d : Fdm) (p : Fin 8) : Fdm := { d with recency := d.recency.filter (· ≠ p) ++ [p] }

/-- A position's place in the recency list, 0 for the least recently used (R23). -/
def Fdm.rank (d : Fdm) (p : Fin 8) : Nat := d.recency.idxOf p

/-- R27: a line's first use of a position adds 1 to its count. -/
def Fdm.incRef (d : Fdm) (p : Fin 8) : Fdm := d.setPos p { d.pos[p] with count := d.pos[p].count + 1 }

/-- R21: retirement of a WITHDRAWING face from its position, with its FACE_RETIRED notice. -/
def Fdm.retireFrom (d : Fdm) (p : Fin 8) : Fdm × List Notice :=
  match d.pos[p].state.face with
  | some f => if d.dir[f].state = .withdrawing then ((d.emptyPos p).undefineFace f, [.faceRetired f p]) else (d, [])
  | none => (d, [])

/-- R27: a line's reference to a position ends; at 0 a WITHDRAWING face retires. -/
def Fdm.decRef (d : Fdm) (p : Fin 8) : Fdm × List Notice :=
  let d' := d.setPos p { d.pos[p] with count := d.pos[p].count - 1 }
  if d'.pos[p].count = 0 then d'.retireFrom p else (d', [])

/-- The references of a list end one after another in the list's order, and so stand the notices of the faces that retire (log
entry 37). -/
def Fdm.decRefs : List (Fin 8) → Fdm → Fdm × List Notice
  | [], d => (d, [])
  | p :: ps, d =>
    let a := d.decRef p
    let b := Fdm.decRefs ps a.1
    (b.1, a.2 ++ b.2)

/-- The references of a line end, and the faces that retire are reported (R27, R21). -/
def State.release (used : List (Fin 8)) (s : State) : State :=
  let r := s.fdm.decRefs used
  State.postAll r.2 { s with fdm := r.1 }

/-- R29: the position a mount of face f would take now. -/
def Fdm.choose (d : Fdm) (f : Fin 128) : Option (Fin 8) :=
  let own := eights.find? (fun p => match d.pos[p].state with
    | .failed g _ => g == f
    | _ => false)
  let empty := eights.find? (fun p => d.pos[p].state == .empty)
  let failed := d.recency.find? (fun p => match d.pos[p].state with
    | .failed _ _ => true
    | _ => false)
  let unused := d.recency.find? (fun p => match d.pos[p].state with
    | .mounted _ => d.pos[p].count == 0
    | _ => false)
  own.or (empty.or (failed.or unused))

/-- The request of a face is the one being loaded (R30). -/
def Fdm.isLoading (d : Fdm) (f : Fin 128) : Bool :=
  match d.load with
  | some l => l.face == f
  | none => false

/-- R30: a channel joins the request of a face, or a request is added at the tail. The list has no limit here: R30's room for six
can be passed by requests that MOUNT orders have joined (log entry 49). -/
def Fdm.requestMount (d : Fdm) (f : Fin 128) (c : Fin 4) : Fdm :=
  if d.requests.any (fun r => r.face == f) then
    { d with requests := d.requests.map (fun r => if r.face = f ∧ c ∉ r.waiters then { r with waiters := r.waiters ++ [c] } else r) }
  else { d with requests := d.requests ++ [⟨f, [c], false⟩] }

/-- R30, third bullet: a channel leaves its request's waiting set, and a request left with no waiting channel, not placed or
joined by a MOUNT order and not loading, leaves the list. -/
def Fdm.dropWaiter (d : Fdm) (c : Fin 4) : Fdm :=
  let leave (r : MountReq) : MountReq := { r with waiters := r.waiters.filter (· ≠ c) }
  { d with requests := (d.requests.filter (fun r =>
      !(c ∈ r.waiters) || r.byOrder || d.isLoading r.face || !((leave r).waiters.isEmpty))).map leave }

/-! ### Channels (chapter 4) -/

/-- One channel's new content. -/
def State.setCh (c : Fin 4) (x : Channel) (s : State) : State := { s with ch := setAt s.ch c x }

/-- A unit that ends a line (R67). -/
def isEnd : CopyUnit → Bool
  | .endLine => true
  | .endPara _ => true
  | _ => false

/-- The buffer holds an END_LINE or END_PARA (R67, R72). -/
def Channel.hasEnd (c : Channel) : Bool := c.buffer.any (fun u => isEnd u.unit)

/-- R67: the channel is eligible. -/
def Channel.eligible (c : Channel) : Bool := c.hasEnd || decide (512 ≤ c.buffer.length)

/-- R67: the eligibility test's state. -/
def Channel.testState (c : Channel) : ChannelState := if c.eligible then .pending else .idle

/-- The channel after the eligibility test. -/
def Channel.retest (c : Channel) : Channel := { c with state := c.testState }

/-- The free space of a copy buffer (R65). -/
def Channel.free (c : Channel) : Nat := 4096 - c.buffer.length

/-- The channels of a waiting set leave MOUNT_WAIT by the eligibility test (R35, R20). -/
def State.wake (cs : List (Fin 4)) (s : State) : State :=
  cs.foldl (fun s c => if s.ch[c].state = .mountWait then s.setCh c s.ch[c].retest else s) s

/-- The CHANNEL_HELD notice of a channel (R68). -/
def heldNotice (c : Fin 4) (why : HeldReason) (x : Channel) : Notice := .channelHeld c why x.consumed x.lineCounter

/-- A channel enters HELD and posts CHANNEL_HELD (R68, R69). -/
def State.hold (c : Fin 4) (why : HeldReason) (s : State) : State :=
  (s.setCh c { s.ch[c] with state := .held why, holdReq := false }).post (heldNotice c why s.ch[c])

/-- R69: a channel takes a REACH hold by its state. -/
def State.reachHold (c : Fin 4) (s : State) : State :=
  match s.ch[c].state with
  | .composing => s.setCh c { s.ch[c] with holdReq := true }
  | .mountWait => State.hold c .reach { s with fdm := s.fdm.dropWaiter c }
  | _ => s.hold c .reach

/-! ### The exposure queue (R138, R139) -/

/-- The slots that are not FREE (R138). -/
def State.slotsTaken (s : State) : List (Fin 16) :=
  (match s.ce.comp with
    | some c => [c.slot]
    | none => []) ++ s.ex.queued.map (·.slot) ++
    (match s.ex.exposing with
    | some x => [x.slot]
    | none => [])

/-- The FREE slot a composition takes: the lowest numbered (log entry 17). -/
def State.freeSlot (s : State) : Option (Fin 16) := sixteens.find? (fun n => n ∉ s.slotsTaken)

/-! ### The bank table (R104 to R107) -/

/-- R102: a page's bank. -/
def bankOf (page : Nat) : Fin 8 := ⟨page % 8, Nat.mod_lt _ (by decide)⟩

/-- R102: a page's row. -/
def rowOf (page : Nat) : Nat := page / 8

/-- A bank's new state. -/
def Fs.setBank (f : Fs) (b : Fin 8) (x : Bank) : Fs := { f with banks := setAt f.banks b x }

/-- The chosen request being served, if any (R105). -/
def Path.req : Path → Option FetchReq
  | .free => none
  | .opening r _ => some r
  | .moving r _ => some r

/-- The state of a bank released by the sequencer: CLOSED, or OPEN at the row of a chosen request still being served (R107). -/
def Fs.releasedBank (f : Fs) (b : Fin 8) : Bank :=
  match f.path.req with
  | some r => if bankOf r.page = b then .opened (rowOf r.page) none else .closed
  | none => .closed

/-- R107: one bank released, if it is BUSY. -/
def Fs.releaseBank (f : Fs) (b : Fin 8) : Fs := if f.banks[b] = .busy then f.setBank b (f.releasedBank b) else f

/-- R107: the eight banks released. -/
def Fs.releaseAll (f : Fs) : Fs := eights.foldl Fs.releaseBank f

/-- R107: the eight banks claimed. -/
def Fs.claimAll (f : Fs) : Fs := { f with banks := Vector.replicate 8 .busy }

/-! ### The fetch queue (R109, R112, R114) -/

/-- R109: a request enters the queue as its youngest, or is held when the queue is full (or others are held before it). -/
def Fs.request (f : Fs) (r : FetchReq) : Fs :=
  if f.queue.length < 32 ∧ f.held = [] then { f with queue := f.queue ++ [{ r with bypass := 0 }] }
  else { f with held := f.held ++ [{ r with bypass := 0 }] }

/-- A requester has a request held for want of space, and makes no other (R109). -/
def Fs.holdsFor (f : Fs) (q : Requester) : Bool := f.held.any (fun r => r.requester == q)

/-- The chosen request being served, unless its requester has withdrawn it (R114). -/
def Path.wantedReq : Path → Option FetchReq
  | .free => none
  | .opening r w => if w then some r else none
  | .moving r w => if w then some r else none

/-- How many requests of a requester are outstanding: queued, held, or being served and not withdrawn (R108). -/
def Fs.outstanding (f : Fs) (q : Requester) : Nat :=
  (f.queue.filter (fun r => r.requester == q)).length + (f.held.filter (fun r => r.requester == q)).length +
    (match f.path.wantedReq with
    | some r => if r.requester = q then 1 else 0
    | none => 0)

/-- R112: the queue is empty, no transfer is in progress and no request is held. -/
def Fs.isIdle (f : Fs) : Bool := f.queue.isEmpty && f.held.isEmpty && f.path == .free

/-- The data path's request is wanted no more when it is the requester's (R114). -/
def Path.unwant (q : Requester) : Path → Path
  | .free => .free
  | .opening r w => .opening r (w && r.requester != q)
  | .moving r w => .moving r (w && r.requester != q)

/-- R114: a requester's queued and held requests are withdrawn, and a transfer in progress for it will be discarded. -/
def Fs.withdraw (f : Fs) (q : Requester) : Fs :=
  { f with queue := f.queue.filter (fun r => r.requester != q), held := f.held.filter (fun r => r.requester != q),
           path := f.path.unwant q }

/-- R128: a suspended erase resumes when fetches idle is reported (R112), claiming all eight banks again. -/
def State.fetchesIdle (s : State) : State :=
  if s.fs.isIdle ∧ s.sq.state = .eraseSuspended then
    { s with fs := s.fs.claimAll, sq := { s.sq with state := .erasing } }
  else s

/-! ### Resets (R179, R180) -/

/-- R119: the store operation in flight that a reset hands to the reset record. -/
def Sq.inFlight (q : Sq) : Interrupted :=
  match q.state with
  | .programming =>
    match q.step, q.buffer with
    | .sent, l :: _ => .program l.page
    | _, _ => .none
  | .erasing => if q.eraseSent then (match q.eraseBlock with
      | some b => .erase b
      | none => .none) else .none
  | .eraseSuspended => match q.eraseBlock with
    | some b => .erase b
    | none => .none
  | _ => .none

/-- R119, R102: the target of a program or erase in flight is left undefined by a reset. -/
def State.losesTarget (s : State) : State :=
  match s.sq.inFlight with
  | .none => s
  | .program p => s.undefine (4096 * p) 4096
  | .erase b => s.undefine (262144 * b) 262144

/-- R180: the record's interrupted operation after a reset line or RESET order. -/
def ResetRecord.note (r : ResetRecord) (i : Interrupted) : ResetRecord :=
  { r with count := min 255 (r.count + 1), interrupted := if i = .none then r.interrupted else i }

/-- R179: every block at its value after reset, with the reset record and phase given; the store's contents (R102), the level of
the reset line and the model's own fields stay, and in start-up a close has been sent to each bank (R182). -/
def State.resetTo (record : ResetRecord) (phase : Phase) (s : State) : State :=
  let t := s.losesTarget
  { store := t.store, serial := t.serial, pending := s.pending,
    fs := { closing := Vector.replicate 8 (phase == .startup) },
    olu := { phase := phase, resetLow := s.olu.resetLow, record := record } }

end Sys2Proof.Machine
end

