-- ==== Sys2Proof/Machine/Compose.lean ====
section
/-! DEFINITION. The composition engine as it runs: the arbiter (R75, R76), the reading of units with their face tests (R37, R38,
R40, R63), and the five endings (R79, R98). -/

namespace Sys2Proof.Machine

/-! ### Face tests (R37, R38) -/

/-- The three results of R37's test of one face number. -/
inductive FaceUse where
  | available (x : Drawn)
  | unmounted (f : Fin 128)
  | unavailable
  deriving DecidableEq, Repr

/-- R37: the test of one face number. -/
def Fdm.tryFace (d : Fdm) (n : Nat) : FaceUse :=
  if h : n < 128 then
    let f : Fin 128 := ⟨n, h⟩
    if d.dir[f].state ≠ .defined then .unavailable
    else match d.posOf f with
      | none => .unmounted f
      | some p => match d.pos[p].state with
        | .mounted _ => .available ⟨p, f⟩
        | .loading _ => .unmounted f
        | _ => .unavailable
  else .unavailable

/-- R37, R38: the face to draw on, and whether it is the fallback; or what stops the composition. -/
def Fdm.testFace (d : Fdm) (n fallback : Nat) : Except Stop (Drawn × Bool) :=
  match d.tryFace n with
  | .available x => .ok (x, false)
  | .unmounted f => .error (.mount f)
  | .unavailable =>
    if fallback = n then .error .face
    else match d.tryFace fallback with
      | .available x => .ok (x, true)
      | .unmounted f => .error (.mount f)
      | .unavailable => .error .face

/-! ### Reading (R40, R63, R7, R8) -/

/-- The set width in force differs from the effective one (R8). -/
def Working.squeezed (w : Working) : Bool := w.eff != w.setw

/-- The unit read in a working context (R63): the context after it, and what it does to the run and the marks. A FACE unit is
tested; an error says what stops the composition there. -/
def readUnit (d : Fdm) (fallback : Nat) (w : Working) (run : Nat) (b : BufUnit) : Except Stop ReadUnit :=
  let r : ReadUnit := { unit := b.unit, tag := b.tag, work := w, run := run }
  match b.unit with
  | .char _ => .ok r
  | .brk _ => .ok r
  | .space => .ok { r with endsRun := true }
  | .fixed _ => .ok { r with endsRun := true }
  | .endLine => .ok { r with endsRun := true }
  | .endPara _ => .ok { r with endsRun := true }
  | .dir x => .ok { r with work := { w with dir := x }, endsRun := x != w.dir }
  | .face n =>
    match d.testFace n fallback with
    | .error e => .error e
    | .ok (x, subst) =>
      .ok { r with work := { w with face := n, drawn := x }, endsRun := x.face != w.drawn.face, subst := subst }
  | .size v =>
    let w' := { w with size := clampSize v }
    .ok { r with work := w', clamped := clampSize v != v || w'.squeezed }
  | .setw v =>
    let w' := { w with setw := clampSize v }
    .ok { r with work := w', clamped := clampSize v != v || w'.squeezed }
  | .track v => .ok { r with work := { w with track := clampTrack v }, clamped := clampTrack v != v }
  | .ligs on => .ok { r with work := { w with ligs := on } }

/-- The composition with a unit read. -/
def Composition.take (c : Composition) (r : ReadUnit) : Composition :=
  { c with work := r.work, run := if r.endsRun then c.run + 1 else c.run, read := c.read ++ [r] }

/-- R78: the composition draws on a position: its first draw takes a reference. -/
def State.draw (c : Composition) (p : Fin 8) (s : State) : State :=
  if p ∈ c.used then { s with ce := { s.ce with comp := some c } }
  else { s with fdm := s.fdm.incRef p, ce := { s.ce with comp := some { c with used := c.used ++ [p] } } }

/-- R37: the line-start test passed: the face drawn on is known, and nothing has been drawn from it yet. -/
def Composition.startFace (c : Composition) (x : Drawn) (subst : Bool) : Composition :=
  { c with work := { c.work with drawn := x }, startSubst := subst, started := true }

/-- The metrics at the mount positions. -/
def State.metrics (s : State) : Fin 8 → Face := fun p => s.fdm.pos[p].metrics

/-- What a composition's line is set under (R77). -/
def Composition.setting (c : Composition) (F : Fin 8 → Face) : Setting := ⟨F, c.ctx, c.lineSetw⟩

/-- The span is read out and was as long as the buffer (R85). -/
def Composition.closed (c : Composition) : Bool := c.read.length == c.spanLen && decide (4096 ≤ c.spanLen)

/-- The line end, once the units read decide it (R83 to R85). -/
def Composition.decided (c : Composition) (F : Fin 8 → Face) : Option LineEnd :=
  if c.started then lineEnd (c.setting F) c.carry c.closed c.read else none

/-- The next unit of the span, if one is left to read. -/
def State.nextUnit (c : Composition) (s : State) : Option BufUnit :=
  if c.read.length < c.spanLen then s.ch[c.channel].buffer[c.read.length]? else none

/-- R81, R84: a hyphen is measured at a BREAK that would be the next unit read: the nearest placement before it is a GLYPH or MARK,
and the hyphen would not pass the placement limit. -/
def Composition.measuresHyphen (c : Composition) (F : Fin 8 → Face) : Bool :=
  match walk (c.setting F) (itemsOf (clustersOf F c.carry c.closed c.read) c.read) {} with
  | .ended _ => false
  | .more w => w.prev == some .glyph && decide (w.count < 256)

/-- R27, R55: reading the unit always draws a quantity: a CHAR is looked up in its face's map, and a FIGURE takes its face's figure
width. -/
def CopyUnit.draws : CopyUnit → Bool
  | .char _ => true
  | .fixed k => k == .figure
  | _ => false

/-- R27, R55: reading a unit draws a quantity from the position of the face drawn on at it; a BREAK that calls for a hyphen draws the
hyphen's width where it is measured. -/
def Composition.drawsAt (c : Composition) (F : Fin 8 → Face) (u : CopyUnit) : Bool :=
  u.draws || (u == .brk true && c.measuresHyphen F)

/-- R27, R26: the composition can draw on a position: it holds a reference to it already, or a face is mounted there. A composition
that is about to draw always can, since the engine goes from a face test to the first draw at once (log entry 12). -/
def State.canDraw (c : Composition) (p : Fin 8) (s : State) : Bool :=
  decide (p ∈ c.used) || (match s.fdm.pos[p].state with
    | .mounted _ => true
    | _ => false)

/-- R77: the engine's next act: the line-start face test, or one unit read with the draw that reading it makes; none once the line
end is decided, when no unit is left, or at a face that cannot be used now. -/
def State.readOne (s : State) : Option State :=
  match s.ce.comp with
  | none => none
  | some c =>
    if c.discard ∨ (c.decided s.metrics).isSome then none
    else if c.started = false then
      match s.fdm.testFace c.work.face c.ctx.fallback with
      | .error _ => none
      | .ok (x, subst) => some { s with ce := { s.ce with comp := some (c.startFace x subst) } }
    else match s.nextUnit c with
    | none => none
    | some b =>
      match readUnit s.fdm c.ctx.fallback c.work c.run b with
      | .error _ => none
      | .ok r =>
        if c.drawsAt s.metrics b.unit = false then some { s with ce := { s.ce with comp := some (c.take r) } }
        else if s.canDraw c r.work.drawn.pos then some (s.draw (c.take r) r.work.drawn.pos)
        else none

/-- The face test last passed has been followed by no draw yet, and the line holds no reference to its position. -/
def State.undrawn (s : State) : Bool :=
  match s.ce.comp with
  | none => false
  | some c => c.started && !decide (c.work.drawn.pos ∈ c.used)

/-- The engine goes on while a condition holds and it can, for at most a number of acts. -/
def State.readWhile (go : State → Bool) : Nat → State → State
  | 0, s => s
  | n + 1, s =>
    if go s then
      match s.readOne with
      | none => s
      | some t => State.readWhile go n t
    else s

/-- As many acts as the engine can have left: its line-start test and the units of its span not yet read. -/
def State.actsLeft (s : State) : Nat :=
  match s.ce.comp with
  | none => 0
  | some c => c.spanLen + 1 - c.read.length

/-- The engine goes one step on: one act, and from a face test on to the first draw after it, so that the position tested is never
taken for a mount between the two (R37, R27, log entry 12). -/
def State.readNext (s : State) : State :=
  match s.readOne with
  | none => s
  | some t => t.readWhile State.undrawn t.actsLeft

/-- The engine reads on as far as it can. -/
def State.readOn (s : State) : State := s.readWhile (fun _ => true) s.actsLeft

/-! ### The arbiter (R75 to R77) -/

/-- R75: the channels in round-robin order after the last served. -/
def roundRobin (last : Fin 4) : List (Fin 4) := [last + 1, last + 2, last + 3, last]

/-- R75: the channel the arbiter would choose. -/
def State.nextServed (s : State) : Option (Fin 4) := (roundRobin s.ce.lastServed).find? (fun c => s.ch[c].state == .pending)

/-- R77: the inputs a composition fixes at its beginning. -/
def Channel.begin (x : Channel) (c : Fin 4) (slot : Fin 16) : Composition :=
  let w : Working := {
    face := x.ctx.face, drawn := ⟨0, 0⟩, size := x.ctx.size, setw := x.ctx.setw, track := x.ctx.track, ligs := x.ctx.ligs,
    dir := x.runDir, quad := x.paraQuad }
  { channel := c, slot := slot, spanLen := x.buffer.length, ctx := x.ctx, carry := x.carry, lineSetw := w.eff,
    startClamped := w.squeezed, work := w }

/-- R75 to R77: a channel is chosen, its slot reserved and its composition begun with the engine's first step. -/
def State.serve (c : Fin 4) (slot : Fin 16) (s : State) : State :=
  let comp := s.ch[c].begin c slot
  let t := s.setCh c { s.ch[c] with state := .composing }
  State.readNext { t with ce := { lastServed := c, comp := some comp } }

/-- ARBITER_CHOICE (R75): with the CE IDLE, a channel PENDING and a slot FREE, the arbiter makes its choice. -/
def execArbiterChoice (s : State) : Host.Outcome State Fault Refusal :=
  match s.ce.comp, s.nextServed, s.freeSlot with
  | none, some c, some slot => .next (s.serve c slot).settle
  | _, _, _ => .next s.settle

/-! ### Endings (R60, R62, R79, R98) -/

/-- R60, R61: the pending changes applied and cleared. -/
def Channel.applyPending (x : Channel) : Channel :=
  let y := { x with ctx := x.ctx.writeAll x.pendSet, pendSet := [], pendCol := none,
                    runDir := match x.pendSet.find? (fun p => p.1 == .paraDir) with
                      | some p => dirOf p.2.toNat
                      | none => x.runDir }
  match x.pendCol with
  | some top => { y with top := top, next := top, lineCounter := 0 }
  | none => y

/-- R62, R63, R45: the channel updated from its delivered line. -/
def Channel.afterLine (x : Channel) (c : Composition) (e : LineEnd) (h : LineHeader) (carry : Option Carry) : Channel :=
  let w := (c.read[e.unit]?.map (·.work)).getD c.work
  { x with
    ctx := { x.ctx with face := w.face, size := w.size, setw := w.setw, track := w.track, ligs := w.ligs },
    runDir := match e.kind with
      | .endPara _ => c.ctx.paraDir
      | _ => w.dir,
    paraQuad := match e.kind with
      | .endPara q => q
      | _ => w.quad,
    buffer := x.buffer.drop (e.unit + 1), next := h.baseline, lineCounter := x.lineCounter + 1, consumed := h.breakIndex,
    carry := carry }

/-- Notices of two blocks posted at once enter the queue in either order (R177, log entry 21). -/
def State.postEither (a b : List Notice) (s : State) : State :=
  if a = [] ∨ b = [] then s.postAll (a ++ b)
  else
    let t := { s with serial := s.serial + 1 }
    if Config.eitherOrder s.serial then t.postAll (a ++ b) else t.postAll (b ++ a)

/-- R98, steps 6 and 7: the channel's next state at a delivered line: HELD with REACH under a hold request, or by the eligibility
test. -/
def State.restate (c : Fin 4) (s : State) : State :=
  if s.ch[c].holdReq then s.hold c .reach else s.setCh c s.ch[c].retest

/-- R98: a composition whose line end is decided delivers its line. -/
def State.deliverLine (c : Composition) (e : LineEnd) (s : State) : State :=
  let x := s.ch[c.channel]
  let line := buildLine (c.setting s.metrics) c e x.next x.lineCounter x.consumed
  let t := s.post (.lineSet line.header)
  State.restate c.channel (State.setCh c.channel (x.afterLine c e line.header (carryAfter s.metrics c e)).applyPending
    { t with
      ex := { t.ex with queued := t.ex.queued ++ [⟨c.slot, line, 0⟩] },
      fdm := line.used.foldl Fdm.touch t.fdm,
      ce := { t.ce with comp := none } })

/-- The endings of R79 that deliver no line. -/
inductive Ending where
  | discarded
  | forCopy
  | stopped (why : Stop)
  deriving DecidableEq, Repr

/-- R79: the hold that an ending without a line puts the channel under. -/
def Ending.hold (e : Ending) (holdReq : Bool) : Option HeldReason :=
  if holdReq then some .reach
  else match e with
    | .stopped .face => some .face
    | _ => none

/-- R79, R67: the channel's state at an ending without a line and without a hold. -/
def Ending.state (e : Ending) (x : Channel) : ChannelState :=
  match e with
  | .discarded => x.testState
  | .forCopy => if 4096 ≤ x.buffer.length then .pending else .idle
  | .stopped _ => .mountWait

/-- R30: the mount request that an ending makes. -/
def Ending.request (e : Ending) (c : Fin 4) (d : Fdm) : Fdm :=
  match e with
  | .stopped (.mount f) => d.requestMount f c
  | _ => d

/-- R79: a composition ends without a line: its references are released, the pending changes applied, and the channel takes its
state. -/
def State.endWithout (c : Composition) (e : Ending) (s : State) : State :=
  let x := s.ch[c.channel].applyPending
  let r := s.fdm.decRefs c.used
  let t := { s with ce := { s.ce with comp := none } }
  match e.hold x.holdReq with
  | some why =>
    State.postEither r.2 [heldNotice c.channel why x]
      (State.setCh c.channel { x with state := .held why, holdReq := false } { t with fdm := r.1 })
  | none =>
    State.postEither r.2 []
      (State.setCh c.channel { x with state := e.state x } { t with fdm := e.request c.channel r.1 })

/-- The stop that the composition stands at, by the face test made now (R37, R38). -/
def State.stopNow (c : Composition) (s : State) : Option Stop :=
  if c.started = false then
    match s.fdm.testFace c.work.face c.ctx.fallback with
    | .error w => some w
    | .ok _ => none
  else match s.nextUnit c with
    | none => none
    | some b => match readUnit s.fdm c.ctx.fallback c.work c.run b with
      | .error w => some w
      | .ok _ => none

/-- LINE_DELIVERY (R98): the engine reads on; a decided composition delivers its line, and one marked for discard ends as
discarded. -/
def execLineDelivery (s : State) : Host.Outcome State Fault Refusal :=
  let t := s.readOn
  match t.ce.comp with
  | none => .next t.settle
  | some c =>
    if c.discard then .next (t.endWithout c .discarded).settle
    else match c.decided t.metrics with
    | some e => .next (t.deliverLine c e).settle
    | none => .next t.settle

/-- COMPOSITION_ABANDON (R79): the engine reads on; a composition that stands at a face that cannot be used, or that needs a unit
beyond its span, is abandoned. -/
def execCompositionAbandon (s : State) : Host.Outcome State Fault Refusal :=
  let t := s.readOn
  match t.ce.comp with
  | none => .next t.settle
  | some c =>
    if c.discard then .next (t.endWithout c .discarded).settle
    else match c.decided t.metrics with
    | some _ => .next t.settle
    | none =>
      match t.stopNow c with
      | some w => .next (t.endWithout c (.stopped w)).settle
      | none => .next (t.endWithout c .forCopy).settle

end Sys2Proof.Machine
end

