-- ==== Sys2Proof/Machine/Sequencer.lean ====
section
/-! DEFINITION. The Store Sequencer: its orders (R122 to R135) and what the store's reports and its own fetches do to its
operations (R123, R126 to R128, R130, R132). -/

namespace Sys2Proof.Machine

/-! ### Tests (R120, R121) -/

/-- An order is recorded as the latest accepted one (R119). -/
def Sq.record (q : Sq) (kind : Byte) : Sq := { q with previous := q.latest, latest := some kind }

/-- A block lies within the protection window (R120, R134). -/
def Sq.windowed (q : Sq) (b : Nat) : Bool :=
  match q.window with
  | some (lo, hi) => decide (lo ≤ b) && decide (b ≤ hi)
  | none => false

/-- A run of pages meets the region of a DEFINED or WITHDRAWING face (R120). -/
def Fdm.protects (d : Fdm) (base n : Nat) : Bool :=
  d.dir.any (fun e => e.state != .undefined && decide (base < e.base + e.size) && decide (e.base < base + n))

/-- The error kinds a target test can add (R120). -/
inductive TargetError where
  | range
  | protect
  | inUse
  deriving DecidableEq, Repr

/-- R120 without RANGE: the first failing test of a run of pages that lies in one block. -/
def targetTest (q : Sq) (d : Fdm) (block base n : Nat) : Option TargetError :=
  if q.windowed block then some .protect else if d.protects base n then some .inUse else none

/-- R120: STORE_WRITE's tests. -/
def writeTest (q : Sq) (d : Fdm) (page offset : Nat) : Option TargetError :=
  if 4096 ≤ page ∨ 4096 ≤ offset ∨ offset % 256 ≠ 0 then some .range else targetTest q d (page / 64) page 1

/-- R120: STORE_ERASE's tests. -/
def eraseTest (q : Sq) (d : Fdm) (block : Nat) : Option TargetError :=
  if 64 ≤ block then some .range else targetTest q d block (64 * block) 64

/-- The set of error kinds with one added (R121). -/
def ErrorKinds.add (k : ErrorKinds) : TargetError → ErrorKinds
  | .range => { k with range := true }
  | .protect => { k with protect := true }
  | .inUse => { k with inUse := true }

/-- The refusal reason of a failing test (R175). -/
def TargetError.reason : TargetError → Reason
  | .range => .range
  | .protect => .protect
  | .inUse => .inUse

/-- R121: a failure found in IDLE locks at once. -/
def State.lockFor (e : TargetError) (s : State) : State :=
  { s with sq := { s.sq with kinds := s.sq.kinds.add e, state := .locked } }

/-- A count held at 65535 (R119). -/
def held16 (n : Nat) : Nat := min 65535 n

/-! ### Program sessions (R122 to R125) -/

/-- R123, step 1: the pre-program read of the line in progress. -/
def lineFetch (l : ProgLine) : FetchReq := { requester := .sequencer, page := l.page, offset := l.offset, length := 256 }

/-- The line in progress begins at its pre-program read (R123). -/
def State.beginLine (l : ProgLine) (s : State) : State :=
  { s with sq := { s.sq with step := .read }, fs := s.fs.request (lineFetch l) }

/-- R125: the session ends: its STORE_DONE is posted, and the sequencer enters LOCKED or IDLE. Lock pending ends with the session
(log entry 39). -/
def State.endSession (s : State) : State :=
  let q := s.sq
  let locked := !q.kinds.isEmpty
  State.post (.storeDone (.program q.programmed q.discarded q.failed) (if locked then .locked else .done) q.kinds)
    { s with sq := { q with state := if locked then .locked else .idle, lockPending := false, step := .read } }

/-- R123: a line fails: it leaves the buffer as the failed line, and the line behind is discarded; the session ends. -/
def State.failLine (l : ProgLine) (kinds : ErrorKinds) (s : State) : State :=
  State.endSession { s with sq := { s.sq with
    kinds := kinds, buffer := [], failed := some (l.page, l.offset),
    discarded := held16 (s.sq.discarded + (s.sq.buffer.length - 1)) } }

/-- R123, step 4: the bank is claimed, and the program is sent unless that bank's chosen request is still being served
(R107). The claim comes before the scheduler's next choice, so the data path is free at it (log entry 47). -/
def State.claimLine (l : ProgLine) (s : State) : State :=
  let b := bankOf l.page
  let waits := match s.fs.path.req with
    | some r => bankOf r.page == b
    | none => false
  { s with fs := s.fs.setBank b .busy, sq := { s.sq with step := if waits then .claimed else .sent } }

/-- R123, steps 2 to 4: the pre-program read has completed. -/
def State.lineRead (data : Bytes) (s : State) : State :=
  match s.sq.buffer with
  | [] => s
  | l :: _ =>
    if data.any (fun b => b != 255) then s.failLine l { s.sq.kinds with programFail := true }
    else match targetTest s.sq s.fdm (l.page / 64) l.page 1 with
    | some e => s.failLine l (s.sq.kinds.add e)
    | none => s.claimLine l

/-- STORE_WRITE (R122, R124). -/
def actStoreWrite (page offset : Word) (data : Bytes) (s : State) : State × Reply :=
  let q := s.sq
  match q.state with
  | .locked => (s, .no .storeLocked)
  | .erasing => (s, .no .busy)
  | .eraseSuspended => (s, .no .busy)
  | .checking => (s, .no .busy)
  | .idle =>
    match writeTest q s.fdm page.toNat offset.toNat with
    | some e => (s.lockFor e, .no e.reason)
    | none =>
      let l : ProgLine := ⟨page.toNat, offset.toNat, data⟩
      (State.beginLine l { s with sq := { q.record 0x30 with
          state := .programming, buffer := [l], programmed := 0, discarded := 0, failed := none } },
        .accept (u8 1))
  | .programming =>
    if q.lockPending then (s, .no .storeLocked)
    else match writeTest q s.fdm page.toNat offset.toNat with
    | some e =>
      ({ s with sq := { q with kinds := q.kinds.add e, lockPending := true, buffer := q.buffer.take 1,
                               discarded := held16 (q.discarded + (q.buffer.length - 1)) } }, .no e.reason)
    | none =>
      if 2 ≤ q.buffer.length then (s, .no .full)
      else ({ s with sq := { q.record 0x30 with buffer := q.buffer ++ [⟨page.toNat, offset.toNat, data⟩] } },
        .accept (u8 (q.buffer.length + 1)))

/-- PROGRAM_LINE_DONE (R123): the line's bytes stand in the store, its bank is released, the line leaves the buffer, and the line
behind begins or the session ends. A report that no program sent awaits is ignored (R132, log entry 41). -/
def execProgramLineDone (s : State) : Host.Outcome State Fault Refusal :=
  match s.sq.state, s.sq.step, s.sq.buffer with
  | .programming, .sent, l :: rest =>
    let t := s.writeLine l
    let t := { t with fs := t.fs.releaseBank (bankOf l.page),
                      sq := { t.sq with buffer := rest, programmed := held16 (t.sq.programmed + 1) } }
    match rest with
    | [] => .next t.endSession.settle
    | m :: _ => .next (t.beginLine m).settle
  | _, _, _ => .next s.settle

/-! ### Erases (R126 to R128) -/

/-- STORE_ERASE (R126): an accepted order's erase claims all eight banks and is sent at once, or when the transfer in progress
completes. -/
def actStoreErase (block : Byte) (s : State) : State × Reply :=
  match s.sq.state with
  | .locked => (s, .no .storeLocked)
  | .idle =>
    match eraseTest s.sq s.fdm block.toNat with
    | some e => (s.lockFor e, .no e.reason)
    | none =>
      ({ s with
          sq := { s.sq.record 0x31 with state := .erasing, eraseBlock := some block.toNat, suspendCount := 0,
                                        eraseLimit := s.sq.limit, suspendAwaited := false, eraseSent := s.fs.path == .free },
          fs := s.fs.claimAll }, .accept [])
  | _ => (s, .no .busy)

/-- ERASE_DONE (R126): the block is erased, the banks are released, STORE_DONE is posted, and the sequencer is IDLE. The erase
block becomes none, as R126 says, and is not kept for STORE_QUERY (R137, log entry 52). A report that no running erase awaits is
ignored (R132, log entry 41). -/
def execEraseDone (s : State) : Host.Outcome State Fault Refusal :=
  match s.sq.state, s.sq.eraseSent, s.sq.eraseBlock with
  | .erasing, true, some b =>
    let t := s.blankBlock b
    .next (State.post (.storeDone (.erase b t.sq.suspendCount) .done t.sq.kinds)
      { t with
        fs := t.fs.releaseAll,
        sq := { t.sq with state := .idle, eraseBlock := none, eraseSent := false, suspendAwaited := false,
                          interrupted := if t.sq.interrupted = some b then none else t.sq.interrupted } }).settle
  | _, _, _ => .next s.settle

/-- R127: the sequencer's action on a fetch waiting report. -/
def State.fetchWaiting (s : State) : State :=
  let q := s.sq
  if q.state = .erasing ∧ q.suspendAwaited = false ∧ q.mode = .fetchFirst ∧ q.suspendCount ≠ q.eraseLimit then
    { s with sq := { q with suspendCount := q.suspendCount + 1, suspendAwaited := true } }
  else s

/-- ERASE_PAUSED (R127, R128): the erase becomes ERASE_SUSPENDED, the banks are released, the block's content is undefined while
it is paused (R131), and the erase resumes at once when no fetch waits. A report that no suspend awaits is ignored (R132,
log entry 41). -/
def execErasePaused (s : State) : Host.Outcome State Fault Refusal :=
  match s.sq.state, s.sq.suspendAwaited, s.sq.eraseBlock with
  | .erasing, true, some b =>
    let t := s.undefine (262144 * b) 262144
    .next (State.fetchesIdle { t with fs := t.fs.releaseAll, sq := { t.sq with state := .eraseSuspended, suspendAwaited := false } }).settle
  | _, _, _ => .next s.settle

/-- STORE_MODE (R129): a limit above 15 is clamped; the results are the clamped flag, the mode and S. The mode's enumeration is
tested before dispatch (R129, R173). -/
def actStoreMode (mode limit : Byte) (s : State) : State × Reply :=
  if s.sq.state = .idle ∨ s.sq.state = .locked then
    let m : SuspendMode := if mode = 0 then .fetchFirst else .eraseFirst
    let l := clampNat 0 15 limit.toNat
    ({ s with sq := { s.sq.record 0x34 with mode := m, limit := l } },
      .accept (yesNo (15 < limit.toNat) ++ u8 m.code ++ u8 l))
  else (s, .no .busy)

/-! ### Checks and reads (R130, R131) -/

/-- R130: the fetch of a page of the range. -/
def pageFetch (p : Nat) : FetchReq := { requester := .sequencer, page := p, offset := 0, length := 4096 }

/-- STORE_BLANK (R130): direction 0 is UP, 1 DOWN. -/
def actStoreBlank (first last : Word) (direction : Byte) (s : State) : State × Reply :=
  match s.sq.state with
  | .locked => (s, .no .storeLocked)
  | .idle =>
    if 4096 ≤ first.toNat ∨ 4096 ≤ last.toNat ∨ last.toNat < first.toNat then (s.lockFor .range, .no .range)
    else
      let down := direction != 0
      let start := if down then last.toNat else first.toNat
      ({ s with
          sq := { s.sq.record 0x32 with state := .checking, check := some ⟨first.toNat, last.toNat, down, start⟩ },
          fs := s.fs.request (pageFetch start) }, .accept [])
  | _ => (s, .no .busy)

/-- R130: the first byte that is not 255, scanning from the offset upward: its offset and value. -/
def scanUp : Nat → Bytes → Option (Nat × Byte)
  | _, [] => none
  | o, b :: bs => if b = 255 then scanUp (o + 1) bs else some (o, b)

/-- R130: the first byte that is not 255, scanning from the last offset downward. -/
def scanDown : Nat → Bytes → Option (Nat × Byte)
  | _, [] => none
  | o, b :: bs => match scanDown (o + 1) bs with
    | some r => some r
    | none => if b = 255 then none else some (o, b)

/-- R130: the check ends with a result, which its STORE_DONE alone carries: the record of R119 holds none, whatever R137 says of
reading it back (log entry 52). -/
def State.endCheck (found : Option (Nat × Nat × Byte)) (s : State) : State :=
  State.post (.storeDone (.blank found) .done s.sq.kinds) { s with sq := { s.sq with state := .idle, check := none } }

/-- R130: a page of the range has been read. The check position's next page is the one whose fetch is outstanding (log
entry 48). -/
def State.pageRead (data : Bytes) (s : State) : State :=
  match s.sq.check with
  | none => s
  | some c =>
    match (if c.down then scanDown 0 data else scanUp 0 data) with
    | some (o, v) => s.endCheck (some (c.next, o, v))
    | none =>
      if c.next = (if c.down then c.first else c.last) then s.endCheck none
      else
        let n := if c.down then c.next - 1 else c.next + 1
        { s with sq := { s.sq with check := some { c with next := n } }, fs := s.fs.request (pageFetch n) }

/-- The sequencer's fetch has completed (R113): it tests a line or a page. -/
def State.sequencerRead (data : Bytes) (s : State) : State :=
  match s.sq.state with
  | .programming => s.lineRead data
  | .checking => s.pageRead data
  | _ => s

/-- STORE_READ (R131): a LINK fetch; its answer is formed when the request enters the fetch queue (R109, R174). -/
def actStoreRead (tag : Byte) (page offset length : Word) (s : State) : State × Reply :=
  if s.sq.state = .locked then (s, .no .storeLocked)
  else if 4096 ≤ page.toNat ∨ 4096 ≤ offset.toNat ∨ 4096 < offset.toNat + length.toNat ∨ length.toNat < 1 ∨ 256 < length.toNat then
    (s, .no .range)
  else
    let f := s.fs.request { requester := .link, page := page.toNat, offset := offset.toNat, length := length.toNat, ref := tag.toNat }
    ({ s with fs := f }, if f.holdsFor .link then .later else .accept [])

/-! ### Abort, clear, window and query (R132 to R135) -/

/-- The operation in progress as STORE_ABORT's notice reports it (R132); a check ended unfinished reports BLANK with no byte found
(log entry 40). -/
def Sq.abortedOp (q : Sq) : StoreOp :=
  match q.state with
  | .programming => .program q.programmed (held16 (q.discarded + q.buffer.length)) q.failed
  | .erasing => .erase (q.eraseBlock.getD 255) q.suspendCount
  | .eraseSuspended => .erase (q.eraseBlock.getD 255) q.suspendCount
  | .checking => .blank none
  | _ => .none

/-- R132: the store's side of an abort: a line or erase that has been sent is stopped, its content undefined. -/
def State.stopStore (s : State) : State :=
  match s.sq.state, s.sq.buffer, s.sq.eraseBlock with
  | .programming, l :: _, _ => if s.sq.step = .sent then s.undefine (4096 * l.page + l.offset) 256 else s
  | .erasing, _, some b => if s.sq.eraseSent then s.undefine (262144 * b) 262144 else s
  | .eraseSuspended, _, some b => s.undefine (262144 * b) 262144
  | _, _, _ => s

/-- R132: the fetch scheduler's side of an abort: the sequencer's request is withdrawn, and the banks it holds are released. -/
def Fs.stopSequencer (q : Sq) (f : Fs) : Fs :=
  match q.state, q.buffer with
  | .programming, l :: _ => if q.step = .read then f.withdraw .sequencer else f.releaseBank (bankOf l.page)
  | .erasing, _ => f.releaseAll
  | .checking, _ => f.withdraw .sequencer
  | _, _ => f

/-- R132: the sequencer after an abort. -/
def Sq.aborted (q : Sq) : Sq :=
  let q' := { q.record 0x36 with state := .idle, kinds := {}, lockPending := false }
  match q.state with
  | .programming => { q' with buffer := [], step := .read, discarded := held16 (q.discarded + q.buffer.length) }
  | .erasing => { q' with eraseBlock := none, eraseSent := false, suspendAwaited := false,
                          interrupted := if q.eraseSent then q.eraseBlock else q.interrupted }
  | .eraseSuspended => { q' with eraseBlock := none, eraseSent := false, suspendAwaited := false, interrupted := q.eraseBlock }
  | .checking => { q' with check := none }
  | _ => q'

/-- The error kinds that an aborting STORE_DONE carries: the book does not say whether they are already cleared (log entry 20). -/
def abortKinds (k : ErrorKinds) : ErrorKinds := if k = {} then {} else if Config.abortReportsKinds then k else {}

/-- STORE_ABORT (R132): accepted in every state; the results are the operation ended and the error kinds cleared. -/
def actStoreAbort (s : State) : State × Reply :=
  let q := s.sq
  let t := s.stopStore
  (State.post (.storeDone q.abortedOp .aborted (abortKinds q.kinds))
      { t with sq := q.aborted, fs := t.fs.stopSequencer q },
    .accept (u8 q.abortedOp.code ++ u8 q.kinds.byte))

/-- STORE_CLEAR (R133). -/
def actStoreClear (s : State) : State × Reply :=
  if s.sq.state = .idle ∨ s.sq.state = .locked then
    ({ s with sq := { s.sq.record 0x35 with state := .idle, kinds := {} } }, .accept [])
  else (s, .no .busy)

/-- STORE_WINDOW (R134, R184): 255 and 255 mean NONE. -/
def actStoreWindow (first last : Byte) (s : State) : State × Reply :=
  if s.fdm.lock then (s, .no .mapLocked)
  else if first = 255 ∧ last = 255 then ({ s with sq := { s.sq.record 0x37 with window := none } }, .accept [])
  else if last.toNat < first.toNat ∨ 64 ≤ last.toNat then (s, .no .range)
  else ({ s with sq := { s.sq.record 0x37 with window := some (first.toNat, last.toNat) } }, .accept [])

/-- The sequencer record as STORE_QUERY reports it (R135; widths and none codes R187, log entry 19). The step of the line in
progress is program sent (1) once sent and read (0) before, its bank claimed or not (log entry 42). It gives the fields of R135 and no
more: no outcome, blank-check result or block of an ended operation (R137, log entry 52). Lock pending and suspend awaited are 1 for
set (log entry 57). -/
def Sq.report (q : Sq) : Bytes :=
  u8 q.state.code ++ yesNo q.lockPending ++ u8 q.kinds.byte ++ opt8 (q.latest.map (·.toNat)) ++ opt8 (q.previous.map (·.toNat)) ++
    u8 q.buffer.length ++ opt16 (q.buffer.head?.map (·.page)) ++ opt16 (q.buffer.head?.map (·.offset)) ++
    opt8 (q.buffer.head?.map (fun _ => if q.step = .sent then 1 else 0)) ++
    u16 q.programmed ++ u16 q.discarded ++ opt16 (q.failed.map (·.1)) ++ opt16 (q.failed.map (·.2)) ++
    opt8 q.eraseBlock ++ u8 q.suspendCount ++ u8 q.eraseLimit ++ yesNo q.suspendAwaited ++ opt8 q.interrupted ++
    opt16 (q.check.map (·.first)) ++ opt16 (q.check.map (·.last)) ++ opt8 (q.check.map (fun c => if c.down then 1 else 0)) ++
    opt16 (q.check.map (·.next)) ++ u8 q.mode.code ++ u8 q.limit ++ opt8 (q.window.map (·.1)) ++ opt8 (q.window.map (·.2))

/-- STORE_QUERY (R135). -/
def actStoreQuery (s : State) : State × Reply := (s, .accept s.sq.report)

end Sys2Proof.Machine
end

