-- ==== Sys2Proof/Machine/Mounting.lean ====
section
/-! DEFINITION. The Face Directory and Mount Unit: its orders (R19 to R23, R31) and the mount loader (R32 to R35). -/

namespace Sys2Proof.Machine

/-! ### The loader -/

/-- R33: the number of pages of a section of L bytes. -/
def pagesOf (len : Nat) : Nat := (len + 4095) / 4096

/-- R33: the fetch of page k of a section of L bytes whose region begins at a base page. -/
def sectionFetch (base len k : Nat) : FetchReq :=
  { requester := .mount, page := base + k, offset := 0,
    length := if k + 1 = pagesOf len then len - 4096 * k else 4096, ref := k }

/-- R33: the loader makes the section's next fetches, at most four outstanding, and none while one is held (R109). -/
def pumpMount : Nat → Fdm → Fs → Fdm × Fs
  | 0, d, f => (d, f)
  | n + 1, d, f =>
    match d.load with
    | some l =>
      match l.length with
      | some len =>
        if l.issued < pagesOf len ∧ f.outstanding .mount < 4 ∧ f.holdsFor .mount = false then
          pumpMount n { d with load := some { l with issued := l.issued + 1 } }
            (f.request (sectionFetch d.dir[l.face].base len l.issued))
        else (d, f)
      | none => (d, f)
    | none => (d, f)

/-- The loader's next fetches, if any (R33). -/
def State.pumpLoader (s : State) : State :=
  let r := pumpMount 4 s.fdm s.fs
  { s with fdm := r.1, fs := r.2 }

/-- R35: the position, the notice and the recency list at a load's end. -/
def endLoad (d : Fdm) (l : Load) (fail : Option MountCause) : Fdm × Notice :=
  let m := d.pos[l.pos]
  let met := m.metrics
  match fail with
  | none => ((d.setPos l.pos { m with state := .mounted l.face, count := 0 }).touch l.pos,
      .mountDone l.face l.pos met.e met.glyphs.length l.evicted)
  | some c => ((d.setPos l.pos { state := .failed l.face c }).touch l.pos, .mountFailed l.face l.pos c l.evicted)

/-- R35: a load ends: its notice, then the request leaves, a WITHDRAWING face retires (R21), and the waiting channels take the
eligibility test. -/
def State.loadEnds (l : Load) (fail : Option MountCause) (s : State) : State :=
  let r := endLoad s.fdm l fail
  let waiters := ((s.fdm.requests.find? (fun q => q.face == l.face)).map (·.waiters)).getD []
  let t := State.post r.2 { s with fdm := { r.1 with load := none, requests := r.1.requests.filter (fun q => q.face != l.face) } }
  let z := t.fdm.retireFrom l.pos
  State.wake waiters (State.postAll z.2 { t with fdm := z.1 })

/-- R33, R34: a page of the section has come: it goes into metric memory; the base page is tested, and the whole section when
all its pages are in. -/
def State.mountPage (r : FetchReq) (data : Bytes) (s : State) : State :=
  match s.fdm.load with
  | none => s
  | some l =>
    let m := s.fdm.pos[l.pos]
    let m' : MountPos := { m with memory := placePage r.ref data m.memory }
    let d := s.fdm.setPos l.pos m'
    let size := d.dir[l.face].size
    match l.length with
    | none =>
      match headerTest data size with
      | some c => State.loadEnds l (some c) { s with fdm := d }
      | none =>
        let len := at32 data 24
        if len ≤ 4096 then State.loadEnds l (bodyTest m'.sectionBytes size) { s with fdm := d }
        else State.pumpLoader { s with fdm := { d with load := some { l with length := some len } } }
    | some len =>
      if m'.memory.length = pagesOf len then State.loadEnds l (bodyTest m'.sectionBytes size) { s with fdm := d }
      else State.pumpLoader { s with fdm := d }

/-- R32: the load of the head request begins in a position. Another face that held the position, MOUNTED or FAILED, is the evicted
face (log entry 36). -/
def State.beginLoad (q : MountReq) (p : Fin 8) (s : State) : State :=
  let old := s.fdm.pos[p].state.face
  let evicted := if old = some q.face then none else old
  { s with
    fdm := { s.fdm.setPos p { state := .loading q.face } with load := some { pos := p, face := q.face, evicted := evicted, issued := 1 } },
    fs := s.fs.request { requester := .mount, page := s.fdm.dir[q.face].base, offset := 0, length := 4096 } }

/-- MOUNT_LOAD_BEGIN (R32): when no load is in progress and the head request's choice of position (R29) yields one, its load
begins; otherwise nothing happens. -/
def execMountLoadBegin (s : State) : Host.Outcome State Fault Refusal :=
  match s.fdm.load, s.fdm.requests with
  | none, q :: _ =>
    match s.fdm.choose q.face with
    | some p => .next (s.beginLoad q p).settle
    | none => .next s.settle
  | _, _ => .next s.settle

/-! ### Orders -/

/-- R19, test 2: a size that is a power of two from 1 to 1024. -/
def regionSizeOk (n : Nat) : Bool := n ∈ [1, 2, 4, 8, 16, 32, 64, 128, 256, 512, 1024]

/-- Two runs of pages share a page (R19). -/
def overlaps (b1 n1 b2 n2 : Nat) : Bool := decide (b1 < b2 + n2) && decide (b2 < b1 + n1)

/-- A region overlaps that of an entry in DEFINED or WITHDRAWING state (R19, test 4). -/
def Fdm.anyOverlap (d : Fdm) (base size : Nat) : Bool :=
  d.dir.any (fun e => e.state != .undefined && overlaps base size e.base e.size)

/-- FACE_DEFINE's tests in their order (R19): the first failing one. -/
def Fdm.defineRefusal (d : Fdm) (face : Byte) (base size : Nat) : Option Reason :=
  if d.lock then some .mapLocked
  else if 128 ≤ face.toNat ∨ regionSizeOk size = false ∨ 4096 ≤ base ∨ base % size ≠ 0 then some .range
  else if d.dir[face.toNat % 128].state ≠ .undefined then some .state
  else if d.anyOverlap base size then some .overlap
  else none

/-- FACE_DEFINE (R19). -/
def actFaceDefine (face : Byte) (base size : Word) (s : State) : State × Reply :=
  match s.fdm.defineRefusal face base.toNat size.toNat with
  | some r => (s, .no r)
  | none => ({ s with fdm := { s.fdm with dir := setAt s.fdm.dir (Fin.ofNat 128 face.toNat) ⟨.defined, base.toNat, size.toNat⟩ } },
      .accept [])

/-- R20: the face's position keeps the withdrawal waiting: it is LOADING, or MOUNTED with lines that use it. -/
def Fdm.inUse (d : Fdm) (f : Fin 128) : Bool :=
  match d.posOf f with
  | none => false
  | some p => match d.pos[p].state with
    | .loading _ => true
    | _ => d.pos[p].count != 0

/-- R20: immediate retirement: the position it held becomes EMPTY, the entry UNDEFINED, and a waiting request is removed. -/
def State.retireNow (f : Fin 128) (s : State) : State :=
  let d := match s.fdm.posOf f with
    | some p => s.fdm.emptyPos p
    | none => s.fdm
  let waiters := ((d.requests.find? (fun q => q.face == f)).map (·.waiters)).getD []
  State.wake waiters { s with fdm := { d.undefineFace f with requests := d.requests.filter (fun q => q.face != f) } }

/-- FACE_WITHDRAW (R20, R21): the results are retired 0 or withdrawing 1, and the face of a mount request removed or 255
(log entry 19). -/
def actFaceWithdraw (face : Byte) (s : State) : State × Reply :=
  if s.fdm.lock then (s, .no .mapLocked)
  else if 128 ≤ face.toNat then (s, .no .range)
  else
    let f : Fin 128 := Fin.ofNat 128 face.toNat
    if s.fdm.dir[f].state ≠ .defined then (s, .no .state)
    else if s.fdm.inUse f then
      ({ s with fdm := { s.fdm with dir := setAt s.fdm.dir f { s.fdm.dir[f] with state := .withdrawing } } },
        .accept (u8 1 ++ opt8 none))
    else
      (s.retireNow f, .accept (u8 0 ++ opt8 (if s.fdm.requests.any (fun q => q.face == f) then some f.val else none)))

/-- MAP_LOCK (R22): the lock is set, and the answer gives its state before, 1 for set (log entry 57). -/
def actMapLock (s : State) : State × Reply :=
  ({ s with fdm := { s.fdm with lock := true } }, .accept (yesNo s.fdm.lock))

/-- A position as FACE_QUERY reports it: state, failure cause or none, reference count, recency rank (R23). -/
def Fdm.posReport (d : Fdm) (p : Fin 8) : Bytes :=
  u8 d.pos[p].state.code ++ opt8 (d.pos[p].state.cause.map (·.code)) ++ u8 d.pos[p].count ++ u8 (d.rank p)

/-- FACE_QUERY's report on a face (R23; widths and none codes R187, log entry 19; the map lock, 1 for set: log entry 57). -/
def Fdm.faceReport (d : Fdm) (f : Fin 128) : Bytes :=
  let e := d.dir[f]
  u8 e.state.code ++ u16 e.base ++ u16 e.size ++
    (match d.posOf f with
    | some p => u8 p.val ++ d.posReport p
    | none => opt8 none) ++
    (match d.requests.find? (fun q => q.face == f) with
    | some q => yesNo true ++ u8 (d.requests.idxOf q) ++ yesNo q.byOrder ++ u8 (channelSetByte q.waiters)
    | none => yesNo false) ++
    yesNo d.lock

/-- FACE_QUERY's report on the mount table (R23): each position, then the request list and whether its head is loading (0) or
waiting for a position (1), or 255 when the list is empty (log entry 19). -/
def Fdm.tableReport (d : Fdm) : Bytes :=
  eights.flatMap (fun p => u8 d.pos[p].state.code ++ opt8 (d.pos[p].state.face.map (·.val)) ++
      opt8 (d.pos[p].state.cause.map (·.code)) ++ u8 d.pos[p].count ++ u8 (d.rank p)) ++
    u8 d.requests.length ++
    d.requests.flatMap (fun q => u8 q.face.val ++ u8 (channelSetByte q.waiters) ++ yesNo q.byOrder) ++
    opt8 (match d.requests with
      | [] => none
      | q :: _ => some (if d.isLoading q.face then 0 else 1))

/-- FACE_QUERY (R23). -/
def actFaceQuery (face : Byte) (s : State) : State × Reply :=
  if face.toNat < 128 then (s, .accept (s.fdm.faceReport (Fin.ofNat 128 face.toNat)))
  else if face = 255 then (s, .accept s.fdm.tableReport)
  else (s, .no .range)

/-- A request placed or joined by a MOUNT order and not loading is in the list (R31). -/
def Fdm.orderWaiting (d : Fdm) : Bool := d.requests.any (fun q => q.byOrder && !d.isLoading q.face)

/-- The face is MOUNTED at the position given (R31, R37). -/
def Fdm.mountedAt (d : Fdm) (f : Fin 128) : Option (Fin 8) :=
  match d.posOf f with
  | some p => match d.pos[p].state with
    | .mounted _ => some p
    | _ => none
  | none => none

/-- The face's position is FAILED (R31, R37). -/
def Fdm.hasFailed (d : Fdm) (f : Fin 128) : Bool :=
  match d.posOf f with
  | some p => match d.pos[p].state with
    | .failed _ _ => true
    | _ => false
  | none => false

/-- MOUNT (R31): the first case that applies; the results are mounted 0 with the position, pending 1, queued 2
(log entry 19). -/
def actMount (face : Byte) (s : State) : State × Reply :=
  if 128 ≤ face.toNat then (s, .no .range)
  else
    let f : Fin 128 := Fin.ofNat 128 face.toNat
    let queued : State × Reply :=
      ({ s with fdm := { s.fdm with requests := s.fdm.requests ++ [⟨f, [], true⟩] } }, .accept (u8 2))
    if s.fdm.dir[f].state ≠ .defined then (s, .no .state)
    else match s.fdm.mountedAt f with
    | some p => (s, .accept (u8 0 ++ u8 p.val))
    | none =>
      if s.fdm.requests.any (fun q => q.face == f) then
        ({ s with fdm := { s.fdm with requests := s.fdm.requests.map (fun q => if q.face = f then { q with byOrder := true } else q) } },
          .accept (u8 1))
      else if s.fdm.orderWaiting then (s, .no .busy)
      else if s.fdm.hasFailed f then queued
      else if s.fdm.choose f = none then (s, .no .busy)
      else queued

end Sys2Proof.Machine
end

