-- ==== Sys2Proof/Machine/Strike.lean ====
section
/-! DEFINITION. The Strike Assembler: the strike list of a line (R161), the fetching and testing of masters (R162, R163), and
the sending of its records over the strike port (R158, R164). -/

namespace Sys2Proof.Machine

/-! ### The strike list (R161) -/

/-- The records of one element: a cluster's base, its marks in logical order, and its EXTEND, which stands last in an LTR run
and first in an RTL run; a hyphen's; none for spaces. -/
def elementRecords (d : Fdm) (ps : List Placement) (i : Nat) : List StrikeRec :=
  match ps[i]? with
  | none => []
  | some p =>
    match p.pos, p.glyph with
    | some at_, some g =>
      let base : StrikeRec := { extend := false, x := p.x, size := p.size, setw := p.setw, pos := at_, glyph := g }
      let marks := (ps.filter (fun m => m.base == some i)).filterMap (fun m =>
        match m.glyph with
        | some mg => some { extend := false, x := m.x, dy := -m.yoff, size := m.size, setw := m.setw, pos := at_, glyph := mg }
        | none => none)
      let ext : List StrikeRec :=
        match p.extX with
        | some x => if p.elong ≠ 0 then
            [{ extend := true, x := x, width := p.elong, size := p.size, pos := at_, glyph := (d.pos[at_].metrics).ext }] else []
        | none => []
      match p.kind with
      | .glyph => if p.dir = .ltr then base :: marks ++ ext else ext ++ base :: marks
      | .hyphen => [base]
      | _ => []
    | _, _ => []

/-- R161: a record lies off the exposure field, 0 to 55,296 fu. -/
def StrikeRec.offField (r : StrikeRec) : Bool :=
  if r.extend then decide (r.x < 0) || decide (55296 < r.x + r.width) else decide (r.x < 0) || decide (55296 < r.x)

/-- The strike list of a line before clipping, in visual order. -/
def fullList (d : Fdm) (l : Line) : List StrikeRec := l.visual.flatMap (elementRecords d l.placements)

/-! ### Masters (R162, R163) -/

/-- The base page of the region of the face mounted at a position (R162). -/
def Fdm.regionBase (d : Fdm) (p : Fin 8) : Nat :=
  match d.pos[p].state.face with
  | some f => d.dir[f].base
  | none => 0

/-- R162: the fetch of the master of a glyph of the face at a position, into master buffer b. -/
def masterFetch (d : Fdm) (p : Fin 8) (glyph : Nat) (b : Fin 8) : FetchReq :=
  let o := ((d.pos[p].metrics).glyph glyph).master
  { requester := .strike, page := d.regionBase p + o / 4096, offset := o % 4096, length := 4096 - o % 4096, ref := b.val }

/-- R163: the tests of fetched bytes that start at a master's prefix and run to the end of its page. -/
def masterPasses (data : Bytes) : Bool :=
  match data with
  | a :: b :: c :: e :: rest =>
    let len := (word a b).toNat
    decide (1 ≤ len) && decide (len ≤ rest.length) && decide (masterSum (rest.take len) = (word c e).toNat)
  | _ => false

/-- The master bytes of fetched bytes that pass (section 11.7). -/
def masterBytes (data : Bytes) : Bytes :=
  match data with
  | a :: b :: _ :: _ :: rest => rest.take (word a b).toNat
  | _ => []

/-- A FREE master buffer, the lowest numbered (log entry 17). -/
def Sa.freeBuffer (a : Sa) : Option (Fin 8) := eights.find? (fun b => a.buffers[b] == .free)

/-- The replacement fetch of a buffer: the missing glyph's master of the face of its record (R163). -/
def Sa.replacement (a : Sa) (d : Fdm) (w : Assembly) (b : Fin 8) : Option FetchReq :=
  match a.buffers[b] with
  | .fetching i _ => (w.list[i]?).map (fun r => masterFetch d r.pos (d.pos[r.pos].metrics).missing b)
  | _ => none

/-- R162, R163: while it holds no request (R109), the SA requests the replacements it owes, in the order of their failures, and then
the master of the record at the fetch point whenever a buffer is FREE (that order of the two: log entry 51). -/
def pumpStrike (d : Fdm) : Nat → Sa → Fs → Sa × Fs
  | 0, a, f => (a, f)
  | n + 1, a, f =>
    match a.assembly with
    | none => (a, f)
    | some w =>
      if f.holdsFor .strike then (a, f)
      else match w.owed with
      | b :: rest =>
        pumpStrike d n { a with assembly := some { w with owed := rest } }
          (match a.replacement d w b with
          | some r => f.request r
          | none => f)
      | [] =>
        match w.list[w.fetchPoint]?, a.freeBuffer with
        | some r, some b =>
          pumpStrike d n
            { a with assembly := some { w with fetchPoint := w.fetchPoint + 1 },
                     buffers := setAt a.buffers b (.fetching w.fetchPoint false) }
            (f.request (masterFetch d r.pos r.glyph b))
        | _, _ => (a, f)

/-- The SA's next fetches, if any (R162). -/
def State.pumpSa (s : State) : State :=
  let r := pumpStrike s.fdm 16 s.sa s.fs
  { s with sa := r.1, fs := r.2 }

/-- The buffer assigned to a record of the list, when it is FILLED. -/
def Sa.filledFor (a : Sa) (i : Nat) : Option (Fin 8 × Bytes × Bool) :=
  eights.findSome? (fun b => match a.buffers[b] with
    | .filled j data om => if j = i then some (b, data, om) else none
    | _ => none)

/-- The outbound record of a strike list entry with its tested master (R158, R161). -/
def StrikeRec.outRecord (r : StrikeRec) (master : Bytes) : OutRecord :=
  if r.extend then .extend r.x r.width r.size master else .strike r.x r.dy r.size r.setw master

/-- R164: with the lane free, the record at the send point is sent when its buffer is FILLED, an omitted one is passed over and
its buffer freed, and LINE_END is sent after the last. An omitted record too waits until the lane is free (log entry 55). -/
def sendNext : Nat → State → State
  | 0, s => s
  | n + 1, s =>
    match s.sa.lane, s.sa.assembly with
    | [], some w =>
      match w.list[w.sendPoint]? with
      | none => { s with sa := { s.sa with lane := [.lineEnd] } }
      | some r =>
        match s.sa.filledFor w.sendPoint with
        | none => s
        | some (b, data, omitted) =>
          if omitted then
            sendNext n (State.pumpSa { s with sa := { s.sa with assembly := some { w with sendPoint := w.sendPoint + 1 },
                                                                buffers := setAt s.sa.buffers b .free } })
          else { s with sa := { s.sa with lane := [r.outRecord (masterBytes data)] } }
    | _, _ => s

/-- R164, from the send point on. -/
def State.send (s : State) : State := sendNext 9 s

/-- The SA's return to IDLE, every buffer FREE (R160). -/
def Sa.toIdle (a : Sa) : Sa := { a with assembly := none, buffers := Vector.replicate 8 .free }

/-- The line being exposed is marked (R163, R161). -/
def Ex.markLine (e : Ex) (f : Marks → Marks) : Ex :=
  { e with exposing := e.exposing.map (fun x =>
      { x with line := { x.line with header := { x.line.header with marks := f x.line.header.marks } } }) }

/-- R163: a master has been fetched into buffer b: it is tested, and its buffer is filled, its record omitted, or the missing
glyph's master requested at once in its place. -/
def State.masterArrived (r : FetchReq) (data : Bytes) (s : State) : State :=
  let b : Fin 8 := Fin.ofNat 8 r.ref
  match s.sa.assembly, s.sa.buffers[b] with
  | some w, .fetching i again =>
    let fill (omitted : Bool) (s : State) : State :=
      { s with sa := { s.sa with buffers := setAt s.sa.buffers b (.filled i data omitted) } }
    if masterPasses data then (fill false s).send
    else
      let t := { s with ex := s.ex.markLine (fun m => { m with damaged := true }) }
      match w.list[i]? with
      | none => t
      | some q =>
        let missing := (t.fdm.pos[q.pos].metrics).missing
        if again || q.extend || q.glyph == missing then (fill true t).send
        else State.pumpSa { t with sa := { t.sa with buffers := setAt t.sa.buffers b (.fetching i true),
                                                     assembly := some { w with owed := w.owed ++ [b] } } }
  | _, _ => s

/-- R161, R164: assembly of the line begins: its strike list is built and clipped, LINE_BEGIN is sent, and masters are
requested. -/
def State.assemble (x : ExposingLine) (s : State) : State :=
  let all := fullList s.fdm x.line
  let kept := all.filter (fun r => !r.offField)
  let ex := if kept.length < all.length then s.ex.markLine (fun m => { m with clipped := true }) else s.ex
  State.pumpSa { s with
    ex := ex,
    sa := { s.sa with assembly := some { list := kept }, buffers := Vector.replicate 8 .free,
                      lane := s.sa.lane ++ [.lineBegin x.line.header.tag x.travel] } }

end Sys2Proof.Machine
end

