-- ==== Sys2Proof/Machine/Fetch.lean ====
section
/-! DEFINITION. The Fetch Scheduler: its choice (R110, R111), the row opens, transfers and holds of the banks (R105, R106, R113),
the entry of held requests (R109), its reports to the sequencer (R112), and FETCH_SET (R116). -/

namespace Sys2Proof.Machine

/-! ### The choice (R110, R111) -/

/-- The request's bank is BUSY (R104). -/
def Fs.isBusy (f : Fs) (r : FetchReq) : Bool := f.banks[bankOf r.page] == .busy

/-- The request is a page hit: its bank is OPEN at its row (R105). -/
def Fs.isHit (f : Fs) (r : FetchReq) : Bool :=
  match f.banks[bankOf r.page] with
  | .opened row _ => row == rowOf r.page
  | _ => false

/-- R110: the request chosen, or none where the data path waits (or the queue is empty). -/
def Fs.chosen (f : Fs) : Option FetchReq :=
  match f.queue with
  | [] => none
  | o :: _ =>
    if f.bypassLimit ≤ o.bypass then (if f.isBusy o then none else some o)
    else (f.queue.find? f.isHit).or (f.queue.find? (fun r => !f.isBusy r))

/-- R111: the queue once a request has been chosen: it has left, and O's bypass count has risen if O was passed over. -/
def Fs.afterChoice (f : Fs) (r : FetchReq) : List FetchReq :=
  match f.queue with
  | [] => []
  | o :: rest => if r = o then rest else { o with bypass := o.bypass + 1 } :: rest.erase r

/-- R105: the chosen request is served: a hit's transfer begins, a miss's row open is sent; the entry is OPEN at its row with no
deadline running. -/
def Fs.serve (f : Fs) (r : FetchReq) : Fs :=
  { f with queue := f.afterChoice r, path := if f.isHit r then .moving r true else .opening r true,
           banks := setAt f.banks (bankOf r.page) (.opened (rowOf r.page) none) }

/-- FETCH_CHOICE (R110): with the data path free and the queue not empty, a request is chosen, or the path waits and a wait on an
erase is reported to the sequencer (R112). -/
def execFetchChoice (s : State) : Host.Outcome State Fault Refusal :=
  if s.fs.path = .free ∧ s.fs.queue ≠ [] then
    match s.fs.chosen with
    | some r => .next ({ s with fs := s.fs.serve r } : State).settle
    | none => .next s.fetchWaiting.settle
  else .next s.settle

/-- ROW_OPEN_DONE (R105): the row of the chosen request is open and its transfer begins. The report is taken as the one now awaited
(log entry 41). -/
def execRowOpenDone (s : State) : Host.Outcome State Fault Refusal :=
  match s.fs.path with
  | .opening r w => .next ({ s with fs := { s.fs with path := .moving r w } } : State).settle
  | _ => .next s.settle

/-! ### Held requests (R109) -/

/-- What follows the entry of a held request: the loader or the assembler may make its next requests, and a LINK request's order
is answered (R131, R174). -/
def State.entered (q : Requester) (s : State) : State :=
  match q with
  | .mount => s.pumpLoader
  | .strike => s.pumpSa
  | .sequencer => s
  | .link => s.answer (.accept [])

/-- FETCH_REQUEST_ENTRY (R109): the request held first enters the queue as its youngest when a place is free. -/
def execFetchRequestEntry (s : State) : Host.Outcome State Fault Refusal :=
  match s.fs.held with
  | [] => .next s.settle
  | r :: rest =>
    if s.fs.queue.length < 32 then
      .next (State.entered r.requester
        { s with fs := { s.fs with queue := s.fs.queue ++ [{ r with bypass := 0 }], held := rest } }).settle
    else .next s.settle

/-! ### Transfers and holds (R106, R107, R113) -/

/-- R106, R107: the bank at a transfer's completion: BUSY stays BUSY; with h = 0 the row closes; otherwise its hold begins. -/
def Fs.completed (f : Fs) (now : Nat) (r : FetchReq) : Fs :=
  let b := bankOf r.page
  if f.banks[b] = .busy then { f with path := .free }
  else if f.hold = 0 then { f with path := .free, banks := setAt f.banks b .closed, closing := setAt f.closing b true }
  else { f with path := .free, banks := setAt f.banks b (.opened (rowOf r.page) (some (now + 4 * f.hold))) }

/-- R107, R126: an erase or program line that waited for the transfer is sent to the store. -/
def Sq.sendWaiting (q : Sq) : Sq :=
  match q.state with
  | .erasing => { q with eraseSent := true }
  | .programming => if q.step = .claimed then { q with step := .sent } else q
  | _ => q

/-- R113: the data goes to the requester, whose own rule takes it from there. -/
def State.deliver (r : FetchReq) (data : Bytes) (s : State) : State :=
  match r.requester with
  | .mount => s.mountPage r data
  | .strike => s.masterArrived r data
  | .sequencer => s.sequencerRead data
  | .link => s.post (.storeData (BitVec.ofNat 8 r.ref) r.page r.offset data)

/-- R112, R128: fetches idle at a completion. A request that the delivery itself makes may be taken before or after the resume of
a suspended erase (log entry 22). -/
def State.idleReport (wasIdle : Bool) (s : State) : State :=
  if wasIdle ∧ s.sq.state = .eraseSuspended ∧ s.fs.isIdle = false then
    let t := { s with serial := s.serial + 1 }
    if Config.eitherOrder s.serial then { t with fs := t.fs.claimAll, sq := { t.sq with state := .erasing } } else t
  else s.fetchesIdle

/-- TRANSFER_COMPLETE (R113): the bank's hold begins, a waiting erase or line is sent, the data is delivered unless the request
was withdrawn (R114), and fetches idle is reported if the queue is then empty. The report is taken as the one now awaited (log
entry 41), and a pre-program read is tested and its bank claimed here, before the next choice (log entry 47). -/
def execTransferComplete (s : State) : Host.Outcome State Fault Refusal :=
  match s.fs.path with
  | .moving r wanted =>
    if 4096 ≤ r.page ∨ 4096 < r.offset + r.length then .fault .noSuchBytes
    else
      let t := { s with fs := s.fs.completed s.time r, sq := s.sq.sendWaiting }
      let u := if wanted then t.deliver r (readBytes s.store (4096 * r.page + r.offset) r.length) else t
      .next (u.idleReport t.fs.isIdle).settle
  | _ => .next s.settle

/-- HOLD_DEADLINE_EXPIRY (R106): an OPEN bank's hold deadline arrives: the FS sends a close and the bank is CLOSED. The timebase
has reached the deadline (log entry 11). -/
def execHoldDeadlineExpiry (b : Fin 8) (s : State) : Host.Outcome State Fault Refusal :=
  match s.fs.banks[b] with
  | .opened _ (some d) =>
    .next ({ s with
      time := max s.time d,
      fs := { s.fs with banks := setAt s.fs.banks b .closed, closing := setAt s.fs.closing b true } } : State).settle
  | _ => .next s.settle

/-- BANK_CLOSE_DONE (R103, R104): the store reports a bank closed. The report is taken as the one now awaited (log entry 41). -/
def execBankCloseDone (b : Fin 8) (s : State) : Host.Outcome State Fault Refusal :=
  .next ({ s with fs := { s.fs with closing := setAt s.fs.closing b false } } : State).settle

/-! ### FETCH_SET (R116) -/

/-- The value a field list names for a field number. -/
def fieldValue (fs : List FieldEntry) (n : Nat) : Option Nat :=
  (fs.find? (fun e => e.number.toNat == n)).map (fun e => e.value.toNat)

/-- R184: every field number of the list lies in 1 to n and none appears twice. -/
def fieldsOk (n : Nat) (fs : List FieldEntry) : Bool :=
  fs.all (fun e => decide (1 ≤ e.number.toNat) && decide (e.number.toNat ≤ n)) && noTwice fs

/-- A list of clamped field numbers, preceded by its length (section 11.4). -/
def clampedList (ns : List Nat) : Bytes := u8 ns.length ++ ns.flatMap u8

/-- A bank as FETCH_SET reports it: its state and, when OPEN, its row (R116); the row of any other is 65535 (log
entry 19). -/
def Bank.report : Bank → Bytes
  | .closed => u8 0 ++ opt16 none
  | .opened row _ => u8 1 ++ u16 row
  | .busy => u8 2 ++ opt16 none

/-- The report of the FS (R116; widths and none codes R187, log entry 19). -/
def Fs.report (f : Fs) : Bytes :=
  u8 f.queue.length ++ u8 f.held.length ++
    opt8 (f.queue.head?.map (fun r => r.requester.code)) ++ opt16 (f.queue.head?.map (·.page)) ++
    opt8 (f.queue.head?.map (·.bypass)) ++
    yesNo f.path.req.isSome ++ opt8 (f.path.req.map (fun r => r.requester.code)) ++
    eights.flatMap (fun b => f.banks[b].report)

/-- FETCH_SET (R116). -/
def actFetchSet (fields : List FieldEntry) (s : State) : State × Reply :=
  if fieldsOk 2 fields = false then (s, .no .form)
  else
    let b := (fieldValue fields 1).getD s.fs.bypassLimit
    let h := (fieldValue fields 2).getD s.fs.hold
    let clamped := (if 15 < b then [1] else []) ++ (if 15 < h then [2] else [])
    let f := { s.fs with bypassLimit := min 15 b, hold := min 15 h }
    ({ s with fs := f }, .accept (clampedList clamped ++ u16 f.bypassLimit ++ u16 f.hold ++ f.report))

end Sys2Proof.Machine
end

