-- ==== Sys2Proof/Machine/Channels.lean ====
section
/-! DEFINITION. The channel orders: COPY, CHANNEL_SET, COLUMN, CANCEL, RELEASE and CHANNEL_QUERY (R59 to R61, R65, R70 to
R72). -/

namespace Sys2Proof.Machine

/-- The channel a target names; none for 4 or more (R59, R61, R65, R70 to R72). -/
def channelOf (target : Byte) : Option (Fin 4) := if h : target.toNat < 4 then some ⟨target.toNat, h⟩ else none

/-! ### COPY (R65) -/

/-- R62: the source unit index of the next unit to join the buffer. -/
def Channel.nextIndex (x : Channel) : BitVec 32 := x.consumed + BitVec.ofNat 32 x.buffer.length

/-- R65: the channel with units appended, taking the eligibility test from IDLE. -/
def Channel.append (x : Channel) (tag : Byte) (us : List CopyUnit) : Channel :=
  let y := { x with buffer := x.buffer ++ us.map (fun u => ⟨u, tag⟩) }
  if x.state = .idle then y.retest else y

/-- COPY (R65). -/
def actCopy (tag target : Byte) (units : List RawUnit) (s : State) : State × Reply :=
  match channelOf target with
  | none => (s, .no .range)
  | some c =>
    match decodeUnits 0 units with
    | .error i => (s, .refuse .form i)
    | .ok us =>
      let x := s.ch[c]
      match x.state with
      | .held _ => (s, .no .state)
      | _ =>
        if x.free < us.length then (s, .refuse .full x.free)
        else (s.setCh c (x.append tag us), .accept (u16 (x.append tag us).free ++ u32 x.nextIndex.toNat))

/-! ### CHANNEL_SET (R59, R60, R6) -/

/-- The fields of CHANNEL_SET in field-number order (section 11.4). -/
def allFields : List SetField :=
  [.measure, .leading, .indent, .paraDir, .wsMin, .wsOpt, .wsMax, .letterLimit, .elongLimit, .priority, .face, .size, .setw,
    .track, .ligs, .fallback, .hyphen, .fullQuad]

/-- The fields an order names, with the values as sent. -/
def namedFields (fields : List FieldEntry) : List (SetField × Word) :=
  fields.filterMap (fun e => (setFieldOf e.number.toNat).map (fun f => (f, e.value)))

/-- R59, case 2: the field list is well formed and every enumerated value lies in its enumeration. -/
def channelFieldsOk (fields : List FieldEntry) : Bool :=
  fieldsOk 18 fields && (namedFields fields).all (fun p => match p.1.enumSize with
    | some n => decide (p.2.toNat < n)
    | none => true)

/-- The value that a list of writes leaves in a field. -/
def written (ws : List (SetField × Word)) (f : SetField) : Option Word := ((ws.filter (fun p => p.1 == f)).getLast?).map (·.2)

/-- R60: pending fields gathered with later ones, field by field, in field-number order. -/
def gather (old new : List (SetField × Word)) : List (SetField × Word) :=
  allFields.filterMap (fun f => ((written new f).or (written old f)).map (fun v => (f, v)))

/-- R6: the word-space fields that the ordering raises, in a context as it will stand, with their raised values. -/
def raised (c : Context) : List (SetField × Word) :=
  let opt := max c.wsOpt c.wsMin
  let mx := max c.wsMax opt
  (if c.wsOpt < opt then [(SetField.wsOpt, BitVec.ofNat 16 opt)] else []) ++
    (if c.wsMax < mx then [(SetField.wsMax, BitVec.ofNat 16 mx)] else [])

/-- R59: the writes of an order on a channel: its clamped fields, and the word-space fields raised. -/
def Channel.writes (x : Channel) (named : List (SetField × Word)) : List (SetField × Word) :=
  let new := named.map (fun p => (p.1, p.1.clamp p.2))
  new ++ raised ((x.ctx.writeAll x.pendSet).writeAll new)

/-- R59: the numbers of the fields named as clamped, in increasing order. -/
def Channel.clampedFields (x : Channel) (named : List (SetField × Word)) : List Nat :=
  let up := raised ((x.ctx.writeAll x.pendSet).writeAll (named.map (fun p => (p.1, p.1.clamp p.2))))
  (allFields.filter (fun f =>
    named.any (fun p => p.1 == f && f.clamp p.2 != p.2) || up.any (fun p => p.1 == f))).map (·.number)

/-- R59: the fields applied at once; a paragraph direction also sets the run direction. -/
def Channel.apply (x : Channel) (ws : List (SetField × Word)) : Channel :=
  { x with ctx := x.ctx.writeAll ws, runDir := match written ws .paraDir with
      | some v => dirOf v.toNat
      | none => x.runDir }

/-- CHANNEL_SET (R59, R60). -/
def actChannelSet (target : Byte) (fields : List FieldEntry) (s : State) : State × Reply :=
  match channelOf target with
  | none => (s, .no .range)
  | some c =>
    if channelFieldsOk fields = false then (s, .no .form)
    else
      let x := s.ch[c]
      let named := namedFields fields
      let ws := x.writes named
      let names := clampedList (x.clampedFields named)
      if x.state = .composing then
        (s.setCh c { x with pendSet := gather x.pendSet ws }, .accept (u8 1 ++ names))
      else (s.setCh c (x.apply ws), .accept (u8 0 ++ names))

/-! ### COLUMN, CANCEL, RELEASE (R61, R70, R71) -/

/-- COLUMN (R61). -/
def actColumn (target : Byte) (top : BitVec 32) (s : State) : State × Reply :=
  match channelOf target with
  | none => (s, .no .range)
  | some c =>
    let x := s.ch[c]
    let t := min 4194303 top.toNat
    let answer := Reply.accept (yesNo (decide (4194303 < top.toNat)))
    if x.state = .composing then (s.setCh c { x with pendCol := some t }, answer)
    else (s.setCh c { x with top := t, next := t, lineCounter := 0 }, answer)

/-- R70: the channel emptied, its carry and hold request cleared, and IDLE unless it is COMPOSING. -/
def Channel.cancelled (x : Channel) : Channel :=
  { x with buffer := [], carry := none, holdReq := false, state := if x.state = .composing then .composing else .idle }

/-- A slot's line belongs to a channel. -/
def QueuedLine.ofChannel (q : QueuedLine) (c : Fin 4) : Bool := q.line.header.channel == c

/-- R70: the exposure queue without a channel's QUEUED lines. A chosen line among them stays the chosen line, marked removed, until
the calibration's DONE (R145). -/
def Ex.withoutLines (e : Ex) (c : Fin 4) : Ex :=
  { e with
    queued := e.queued.filter (fun q => !q.ofChannel c),
    chosen := e.chosen.map (fun x => { x with
      removed := x.removed || e.queued.any (fun q => q.ofChannel c && q.slot == x.slot) }) }

/-- R70: the references of a channel's QUEUED lines, in the order in which they are released: line by line in composition order, each
line's in the order of first use (log entry 37). -/
def Ex.linesUsed (e : Ex) (c : Fin 4) : List (Fin 8) := (e.queued.filter (fun q => q.ofChannel c)).flatMap (·.line.used)

/-- R80: a composition of the channel is marked for discard and ends at once as discarded. -/
def State.discardOf (c : Fin 4) (s : State) : State :=
  match s.ce.comp with
  | some x => if x.channel = c then s.endWithout { x with discard := true } .discarded else s
  | none => s

/-- A line of the channel is EXPOSING (R70). -/
def Ex.isExposing (e : Ex) (c : Fin 4) : Bool :=
  match e.exposing with
  | some x => x.line.header.channel == c
  | none => false

/-- CANCEL (R70): the results are the units discarded, the lines removed, whether a composition was marked for discard and whether
a line of the channel is exposing. -/
def actCancel (target : Byte) (s : State) : State × Reply :=
  match channelOf target with
  | none => (s, .no .range)
  | some c =>
    let x := s.ch[c]
    let t := s.setCh c x.cancelled
    let t := { t with fdm := if x.state = .mountWait then t.fdm.dropWaiter c else t.fdm, ex := t.ex.withoutLines c }
    (State.discardOf c (State.release (s.ex.linesUsed c) t),
      .accept (u16 x.buffer.length ++ u8 (s.ex.queued.filter (fun q => q.ofChannel c)).length ++
        yesNo (x.state == .composing) ++ yesNo (s.ex.isExposing c)))

/-- RELEASE (R71). -/
def actRelease (target : Byte) (s : State) : State × Reply :=
  match channelOf target with
  | none => (s, .no .range)
  | some c =>
    match s.ch[c].state with
    | .held _ => (s.setCh c s.ch[c].retest, .accept [])
    | _ => (s, .no .state)

/-! ### CHANNEL_QUERY (R72) -/

/-- The setting context as CHANNEL_QUERY reports it (R72; widths R186, R187, log entries 19 and 45): the justify priority and the
ligature switch in the two bytes of a field list's value, the direction and the quad in the one byte of a line header. -/
def Context.report (c : Context) : Bytes :=
  u16 c.measure ++ u16 c.leading ++ u16 c.indent ++ u8 c.paraDir.code ++ u16 c.wsMin ++ u16 c.wsOpt ++ u16 c.wsMax ++
    u16 c.letterLimit ++ u16 c.elongLimit ++ u16 c.priority.code ++ u16 c.face ++ u16 c.size ++ u16 c.setw ++ i16 c.track ++
    u16 (if c.ligs then 1 else 0) ++ u16 c.fallback ++ u16 c.hyphen ++ u8 c.fullQuad.code

/-- The channel's own part of CHANNEL_QUERY's answer (R72; the run direction and paragraph quad in one byte: log entry 45; the
face and direction of a clear join carry 255 each: log entry 19; the entries of the list of pending fields: log entry 54; the hold
request and the join carry 1 for set: log entry 57). -/
def Channel.report (x : Channel) : Bytes :=
  u8 x.state.code ++ opt8 (x.state.reason.map (·.code)) ++ yesNo x.holdReq ++
    u16 x.buffer.length ++ u16 x.free ++ yesNo x.hasEnd ++
    u32 x.consumed.toNat ++ u16 x.lineCounter.toNat ++ u32 x.top ++ u32 x.next ++
    x.ctx.report ++ u8 x.runDir.code ++ u8 x.paraQuad.code ++
    u8 x.pendSet.length ++ x.pendSet.flatMap (fun p => u8 p.1.number ++ u16 p.2.toNat) ++ opt32 x.pendCol ++
    yesNo x.carry.isSome ++ opt8 (x.carry.map (·.face.val)) ++ opt8 (x.carry.map (·.dir.code))

/-- The channel's lines in the exposure queue, RESERVED, QUEUED and EXPOSING (R72). -/
def State.lineCounts (c : Fin 4) (s : State) : Bytes :=
  u8 (match s.ce.comp with
    | some x => if x.channel = c then 1 else 0
    | none => 0) ++
    u8 (s.ex.queued.filter (fun q => q.ofChannel c)).length ++ u8 (if s.ex.isExposing c then 1 else 0)

/-- CHANNEL_QUERY (R72). -/
def actChannelQuery (target : Byte) (s : State) : State × Reply :=
  match channelOf target with
  | none => (s, .no .range)
  | some c => (s, .accept (s.ch[c].report ++ s.lineCounts c))

end Sys2Proof.Machine
end

