-- ==== Sys2Proof/Machine/Exposure.lean ====
section
/-! DEFINITION. The Exposure Controller: the film arbiter (R142 to R146), the unit's reports and the timeout (R147, R149, R153,
R154, R159), the sending of records (R158, R164), and its orders (R148, R150 to R152, R155). -/

namespace Sys2Proof.Machine

/-! ### Records sent (R158, R164) -/

/-- The tick at which a timeout started now expires (R153). -/
def State.deadline (s : State) : Nat := s.time + 10000 * s.ex.timeout

/-- R153: the exposure timeout starts. -/
def State.startTimer (s : State) : State := { s with ex := { s.ex with timer := some s.deadline } }

/-- R164: the record at the send point has been sent: its buffer is FREE, and the send point moves on. -/
def Sa.sentRecord (a : Sa) : Sa :=
  match a.assembly with
  | none => a
  | some w =>
    match a.filledFor w.sendPoint with
    | some (b, _, _) => { a with assembly := some { w with sendPoint := w.sendPoint + 1 }, buffers := setAt a.buffers b .free }
    | none => { a with assembly := some { w with sendPoint := w.sendPoint + 1 } }

/-- What follows the sending of a record whose last byte the unit has acknowledged (R158): the SA goes on with its line (R164), or
the exposure timeout starts (R153). -/
def State.recordSent (r : OutRecord) (s : State) : State :=
  match r with
  | .lineBegin _ _ => s.send
  | .strike _ _ _ _ _ => (State.pumpSa { s with sa := s.sa.sentRecord }).send
  | .extend _ _ _ _ => (State.pumpSa { s with sa := s.sa.sentRecord }).send
  | .lineEnd => State.startTimer { s with sa := s.sa.toIdle }
  | .calibrate => s.startTimer
  | .cut _ => s.startTimer

/-- RECORD_SENT (R158): the unit acknowledges the last byte of the record in the outbound lane, and with it any before it that it had
not acknowledged yet (log entry 58). The record leaves the lane, and the first byte of the next, if any, is presented (R157). -/
def execRecordSent (s : State) : Host.Outcome State Fault Refusal :=
  match s.sa.lane with
  | [] => .next s.settle
  | r :: rest => .next (State.recordSent r { s with sa := { s.sa with lane := rest, acked := 0 } }).settle

/-! ### Choosing and exposing (R142 to R146) -/

/-- R142, R143: a line at a baseline is out of reach: below H − R. -/
def Ex.outOfReach (e : Ex) (baseline : Nat) : Bool := decide ((baseline : Int) < (e.high : Int) - e.reach)

/-- R144: a calibration is due. -/
def Ex.due (e : Ex) : Bool := decide (e.interval ≤ e.counter)

/-- R139, R156: a line is lost: its notice, its references, then its slot. -/
def State.loseLine (l : Line) (why : LossReason) (s : State) : State :=
  State.release l.used (s.post (.lineLost l.header why))

/-- R142: QUEUED lines are lost for reach, oldest first, each with its notice, its references and its slot before the next one (log
entry 50). -/
def State.loseQueued : List QueuedLine → State → State
  | [], s => s
  | q :: qs, s =>
    let t := s.loseLine q.line .reach
    State.loseQueued qs { t with ex := { t.ex with queued := t.ex.queued.filter (fun x => x.slot != q.slot) } }

/-- R142: an unreachable O and every other QUEUED line of its channel are lost, and the channel takes a REACH hold, its CHANNEL_HELD
after every notice of the loss (log entry 50). -/
def State.loseChannel (c : Fin 4) (s : State) : State :=
  State.reachHold c (State.loseQueued (s.ex.queued.filter (fun q => q.ofChannel c)) s)

/-- R143: the candidates: the oldest QUEUED line of each channel, in composition order. -/
def Ex.candidates (e : Ex) : List QueuedLine :=
  e.queued.filter (fun q => e.queued.find? (fun x => x.line.header.channel == q.line.header.channel) == some q)

/-- R143: the magnitude of a line's travel from the film position. -/
def Ex.distance (e : Ex) (q : QueuedLine) : Nat := ((q.line.header.baseline : Int) - e.film).natAbs

/-- The line of a list with the least travel, the earlier of equals (R143). -/
def Ex.nearest (e : Ex) : List QueuedLine → Option QueuedLine
  | [] => none
  | q :: qs =>
    match e.nearest qs with
    | some r => if e.distance r < e.distance q then some r else some q
    | none => some q

/-- R143: the line chosen when O is reachable. -/
def Ex.choice (e : Ex) (o : QueuedLine) : QueuedLine :=
  if e.bypassLimit ≤ o.bypass then o
  else (e.nearest (e.candidates.filter (fun q => !e.outOfReach q.line.header.baseline))).getD o

/-- R143: O's bypass count rises when it is passed over. -/
def Ex.passOver (e : Ex) (o chosen : QueuedLine) : Ex :=
  if chosen.slot = o.slot then e
  else { e with queued := e.queued.map (fun q => if q.slot = o.slot then { q with bypass := q.bypass + 1 } else q) }

/-- R146: a QUEUED line's exposure begins. -/
def State.expose (q : QueuedLine) (s : State) : State :=
  let b := q.line.header.baseline
  let x : ExposingLine := { slot := q.slot, line := q.line, travel := (b : Int) - s.ex.film, bypass := q.bypass }
  State.assemble x { s with ex := { s.ex with
    state := .exposing, chosen := none, queued := s.ex.queued.filter (fun y => y.slot != q.slot), exposing := some x,
    film := b, high := max s.ex.high b } }

/-- R144: the calibration due is deferred. -/
def Ex.defers (e : Ex) (q : QueuedLine) : Bool :=
  e.lastChannel == some q.line.header.channel && decide (e.film ≤ q.line.header.baseline) && decide (e.deferral < e.deferLimit)

/-- R145, R148: a CALIBRATE record is sent. -/
def State.calibrate (s : State) : State :=
  { s with ex := { s.ex with state := .calibrating }, sa := { s.sa with lane := s.sa.lane ++ [.calibrate] } }

/-- R144: the chosen line is exposed at once, or after a calibration. -/
def State.take (q : QueuedLine) (s : State) : State :=
  if s.ex.due = false then s.expose q
  else if s.ex.defers q then State.expose q { s with ex := { s.ex with deferral := s.ex.deferral + 1 } }
  else State.calibrate { s with ex := { s.ex with chosen := some { slot := q.slot } } }

/-- R142, R143: the arbiter runs: unreachable Os are lost with their channels, and then a line is chosen. -/
def State.arbitrate : Nat → State → State
  | 0, s => s
  | n + 1, s =>
    match s.ex.queued with
    | [] => s
    | o :: _ =>
      if s.ex.outOfReach o.line.header.baseline then State.arbitrate n (s.loseChannel o.line.header.channel)
      else
        let q := s.ex.choice o
        State.take q { s with ex := s.ex.passOver o q }

/-- FILM_ARBITER (R142): the film arbiter runs when the EX is IDLE and a line is QUEUED. -/
def execFilmArbiter (s : State) : Host.Outcome State Fault Refusal :=
  if s.ex.state = .idle then .next (State.arbitrate (s.ex.queued.length + 1) s).settle else .next s.settle

/-! ### DONE (R145, R147, R149) -/

/-- R147, R149: the EX at an operation's end: HELD, clearing the hold request, when the request is set, IDLE otherwise. -/
def Ex.rest (e : Ex) : Ex := if e.holdReq then { e with state := .held, holdReq := false } else { e with state := .idle }

/-- R147: the exposure of the EXPOSING line completes. -/
def State.exposed (x : ExposingLine) (s : State) : State :=
  let t := State.release x.line.used
    (State.post (.lineExposed x.line.header x.travel s.ex.pageCount) { s with ex := { s.ex with timer := none } })
  { t with ex := Ex.rest { t.ex with
      exposing := none, counter := min 65535 (t.ex.counter + 1), lastChannel := some x.line.header.channel } }

/-- R148: the CUT record's advance. -/
def Ex.advance (e : Ex) : Nat := if e.registered then (e.high - e.film) + e.cutMargin else e.cutMargin

/-- R148, step 4: the EX enters CUTTING and sends a CUT record. -/
def State.cut (s : State) : State :=
  { s with ex := { s.ex with state := .cutting, cutPending := false },
           sa := { s.sa with lane := s.sa.lane ++ [.cut s.ex.advance] } }

/-- R145: the chosen line, if it is still QUEUED. -/
def Ex.chosenLine (e : Ex) : Option QueuedLine :=
  match e.chosen with
  | some x => if x.removed then none else e.queued.find? (fun q => q.slot == x.slot)
  | none => none

/-- R145: a calibration's DONE: the counts are cleared, and the EX goes on to the cut, HELD, the chosen line or IDLE. -/
def State.calibrated (s : State) : State :=
  let e := { s.ex with timer := none, counter := 0, deferral := 0 }
  if e.cutPending then State.cut { s with ex := e }
  else if e.holdReq then { s with ex := { e with state := .held, holdReq := false, chosen := none } }
  else match e.chosenLine with
    | some q => State.expose q { s with ex := e }
    | none => { s with ex := { e with state := .idle, chosen := none } }

/-- R149: a cut completes. -/
def Ex.cutDone (e : Ex) : Ex :=
  Ex.rest { e with timer := none, film := 0, high := 0, registered := true, pageCount := e.pageCount + 1 }

/-- The EX takes a DONE by its state (R145, R147, R149). It awaits one only while the exposure timeout runs, which starts at the
sending of the operation's last record (R153), so a DONE that comes before that is ignored (R147, R189, log entry 30). -/
def State.takeDone (s : State) : State :=
  match s.ex.timer with
  | none => s
  | some _ =>
    match s.ex.state, s.ex.exposing with
    | .exposing, some x => s.exposed x
    | .calibrating, _ => s.calibrated
    | .cutting, _ => { s with ex := s.ex.cutDone }
    | _, _ => s

/-! ### Faults (R153 to R155) -/

/-- R154: a TRANSPORT or FILM_OUT report makes the film unregistered. -/
def FaultCause.losesFilm : FaultCause → Bool
  | .transport => true
  | .filmOut => true
  | _ => false

/-- The operation in progress as a fault record names it (R155). -/
def Ex.operation (e : Ex) : FaultOp :=
  match e.state, e.exposing with
  | .exposing, some x => .line x.line.header.channel x.line.header.lineNumber
  | .calibrating, _ => .calibrate
  | .cutting, _ => .cut
  | _, _ => .none

/-- R153, R154, R166: the SA and the lane at the end of an operation by fault: no further byte is sent, a byte awaiting its
acknowledgement is withdrawn, and so are the STRIKE requests (log entry 25). -/
def State.stopPort (s : State) : State :=
  match s.ex.state with
  | .exposing => { s with sa := s.sa.toIdle.idleLane, fs := s.fs.withdraw .strike }
  | .calibrating => { s with sa := s.sa.idleLane }
  | .cutting => { s with sa := s.sa.idleLane }
  | _ => s

/-- R153, R154: the EXPOSING line, if any, is lost. -/
def State.loseExposing (why : LossReason) (s : State) : State :=
  match s.ex.state, s.ex.exposing with
  | .exposing, some x =>
    let t := s.loseLine x.line why
    { t with ex := { t.ex with exposing := none } }
  | _, _ => s

/-- R153, R154: the EX enters FAULTED from another state, the timeout stopped, the operation ended, and the fault recorded. -/
def Ex.faulted (e : Ex) (cause : FaultCause) : Ex :=
  { e with state := .faulted, timer := none, chosen := none, cutPending := false,
           registered := e.registered && !cause.losesFilm && e.state != .cutting,
           holdReq := e.holdReq || e.state == ExState.held,
           fault := ⟨some cause, 1, e.operation⟩ }

/-- R153, R154: a fault or timeout taken in a state other than FAULTED; fetches idle is reported if the withdrawal emptied the
queue (R114). The notices of a lost line and of the faces that retire with it go before EXPOSE_FAULT (log entry 44). -/
def State.enterFaulted (cause : FaultCause) (why : LossReason) (s : State) : State :=
  let e := s.ex.faulted cause
  let t := s.stopPort.loseExposing why
  State.fetchesIdle (State.post (.exposeFault cause e.fault.op e.registered)
    { t with ex := { e with queued := t.ex.queued, exposing := t.ex.exposing } })

/-- R154: a unit fault report. -/
def State.takeFault (cause : FaultCause) (s : State) : State :=
  if s.ex.state = .faulted then
    { s with ex := { s.ex with
        fault := { s.ex.fault with count := min 255 (s.ex.fault.count + 1) },
        registered := s.ex.registered && !cause.losesFilm } }
  else s.enterFaulted cause .fault

/-! ### The return lane (R157, R159) -/

/-- R157, R159: a byte strobed by the unit on the return lane is taken and acknowledged at once: the second byte of a FAULT, a DONE,
the first byte of a FAULT, or a byte to discard. The lane takes nothing while the part is held in reset (log entry 27). -/
def State.returnByte (b : Byte) (s : State) : State :=
  if s.olu.phase = .inReset then s
  else if s.sa.returnPartial then State.takeFault (faultKind b) { s with sa := { s.sa with returnPartial := false } }
  else if b = 0x71 then s.takeDone
  else if b = 0x72 then { s with sa := { s.sa with returnPartial := true } }
  else s

/-- UNIT_DONE (R147): a DONE on the return lane. -/
def execUnitDone (s : State) : Host.Outcome State Fault Refusal := .next (s.returnByte 0x71).settle

/-- UNIT_FAULT (R154): a FAULT on the return lane, its second byte given. -/
def execUnitFault (kind : Byte) (s : State) : Host.Outcome State Fault Refusal :=
  .next ((s.returnByte 0x72).returnByte kind).settle

/-- UNKNOWN_RETURN_BYTE (R159): a first byte of no record is acknowledged and discarded. -/
def execUnknownReturnByte (b : Byte) (s : State) : Host.Outcome State Fault Refusal := .next (s.returnByte b).settle

/-- EXPOSURE_TIMEOUT (R153): the running timeout expires; the timebase has reached its end (log entry 11). -/
def execExposureTimeout (s : State) : Host.Outcome State Fault Refusal :=
  match s.ex.timer with
  | none => .next s.settle
  | some d => .next (State.enterFaulted .timeout .timeout { s with time := max s.time d }).settle

/-! ### Orders (R148, R150 to R152, R155) -/

/-- R148: FILM_CUT is accepted. -/
def State.canCut (s : State) : Bool :=
  s.ex.queued.isEmpty && s.ex.exposing.isNone && s.ce.comp.isNone &&
    (s.ex.state == .unregistered || s.ex.state == .idle || s.ex.state == .held)

/-- R62, R148: every channel's next baseline is its column top. -/
def State.rewindColumns (s : State) : State :=
  { s with ch := s.ch.map (fun x => { x with next := x.top }) }

/-- FILM_CUT (R148): the result says whether a payback calibration is to be made. -/
def actFilmCut (s : State) : State × Reply :=
  if s.canCut = false then (s, .no .busy)
  else
    let t := s.rewindColumns
    let e := { t.ex with holdReq := t.ex.holdReq || t.ex.state == ExState.held, chosen := none }
    (if e.due then State.calibrate { t with ex := { e with cutPending := true } } else State.cut { t with ex := e },
      .accept (yesNo e.due))

/-- R151: the EX takes EXPOSE_SET only between operations. -/
def Ex.operating (e : Ex) : Bool := e.state == .exposing || e.state == .calibrating || e.state == .cutting

/-- R151: the ranges of the six values, in field-number order. -/
def exposeRanges : List (Nat × Nat) := [(0, 55296), (16, 1024), (0, 8), (0, 7), (1, 255), (0, 4608)]

/-- R151: the six values in force, in field-number order. -/
def Ex.values (e : Ex) : List Nat := [e.reach, e.interval, e.deferLimit, e.bypassLimit, e.timeout, e.cutMargin]

/-- R151: the value a list of fields leaves in field i (from 1), before its clamp. -/
def Ex.asked (e : Ex) (fields : List FieldEntry) (i : Nat) : Nat :=
  (fieldValue fields i).getD (e.values.getD (i - 1) 0)

/-- R151: the value of field i in its range. -/
def clampField (i v : Nat) : Nat :=
  let r := exposeRanges.getD (i - 1) (0, 0)
  clampNat r.1 r.2 v

/-- R151: R raised to H − F while the film is registered. -/
def Ex.raiseReach (e : Ex) (r : Nat) : Nat := if e.registered then max r (e.high - e.film) else r

/-- R151: the EX with the values of a field list in force. -/
def Ex.set (e : Ex) (fields : List FieldEntry) : Ex :=
  let v (i : Nat) : Nat := clampField i (e.asked fields i)
  { e with reach := e.raiseReach (v 1), interval := v 2, deferLimit := v 3, bypassLimit := v 4, timeout := v 5, cutMargin := v 6,
           deferral := min e.deferral (v 3) }

/-- R151: the fields named as clamped, the two adjustments among them. -/
def Ex.clampedFields (e : Ex) (fields : List FieldEntry) : List Nat :=
  [1, 2, 3, 4, 5, 6].filter (fun i =>
    clampField i (e.asked fields i) != e.asked fields i ||
      (i == 1 && decide (clampField 1 (e.asked fields 1) < e.raiseReach (clampField 1 (e.asked fields 1)))) ||
      (i == 3 && decide (clampField 3 (e.asked fields 3) < e.deferral)))

/-- EXPOSE_SET (R151). -/
def actExposeSet (fields : List FieldEntry) (s : State) : State × Reply :=
  if fieldsOk 6 fields = false then (s, .no .form)
  else if s.ex.operating then (s, .no .busy)
  else
    let e := s.ex.set fields
    ({ s with ex := e }, .accept (clampedList (s.ex.clampedFields fields) ++ e.values.flatMap u16))

/-- EXPOSE_HOLD (R150): the result is held 0 or pending 1 (log entry 19). -/
def actExposeHold (s : State) : State × Reply :=
  match s.ex.state with
  | .idle => ({ s with ex := { s.ex with state := .held } }, .accept (u8 0))
  | .unregistered => ({ s with ex := { s.ex with state := .held } }, .accept (u8 0))
  | .held => (s, .accept (u8 0))
  | _ => ({ s with ex := { s.ex with holdReq := true } }, .accept (u8 1))

/-- R150: the state after leaving HELD or FAULTED: IDLE with the film registered, UNREGISTERED without. -/
def Ex.resumed (e : Ex) : ExState := if e.registered then .idle else .unregistered

/-- EXPOSE_RESUME (R150, R155): the result says whether a hold was withdrawn (log entry 19). -/
def actExposeResume (s : State) : State × Reply :=
  let e := s.ex
  match e.state with
  | .held => ({ s with ex := { e with state := e.resumed } }, .accept (yesNo false))
  | .faulted =>
    ({ s with ex := { e with
        fault := {}, holdReq := false, state := if e.holdReq then .held else e.resumed } }, .accept (yesNo false))
  | .idle => (s, .no .state)
  | .unregistered => (s, .no .state)
  | _ => if e.holdReq then ({ s with ex := { e with holdReq := false } }, .accept (yesNo true)) else (s, .no .state)

/-- A line in a slot as EXPOSE_QUERY reports it: the slot's state, then channel, line number, baseline and bypass count (R152). -/
def slotLine (state : Nat) (l : Line) (bypass : Nat) : Bytes :=
  u8 state ++ u8 l.header.channel.val ++ u16 l.header.lineNumber.toNat ++ u32 l.header.baseline ++ u8 bypass

/-- A slot as EXPOSE_QUERY reports it (R152): FREE 0, RESERVED 1, QUEUED 2, EXPOSING 3, with the line it holds. -/
def State.slotReport (s : State) (n : Fin 16) : Bytes :=
  match s.ex.queued.find? (fun q => q.slot == n) with
  | some q => slotLine 2 q.line q.bypass
  | none =>
    match s.ex.exposing with
    | some x => if x.slot = n then slotLine 3 x.line x.bypass else u8 (if n ∈ s.slotsTaken then 1 else 0)
    | none => u8 (if n ∈ s.slotsTaken then 1 else 0)

/-- The controller's own part of EXPOSE_QUERY's answer (R152; widths and none codes R187, log entry 19; the chosen line by its slot,
which stays named there after a CANCEL has removed the line: log entry 43; the hold request and cut pending 1 for set: log entry 57). -/
def Ex.report (e : Ex) : Bytes :=
  u8 e.state.code ++ yesNo e.holdReq ++ yesNo e.cutPending ++ opt8 (e.chosen.map (·.slot.val)) ++
    yesNo e.registered ++ u32 e.film ++ u32 e.high ++ u16 e.pageCount.toNat ++
    e.values.flatMap u16 ++
    u16 e.counter ++ u8 e.deferral ++ yesNo e.due ++ opt8 (e.lastChannel.map (·.val)) ++
    opt8 (e.fault.cause.map (·.code)) ++ u8 e.fault.count ++ e.fault.op.bytes

/-- EXPOSE_QUERY (R152): after the controller's part, the slots, the slot of O, and whether LINE_END has been sent, each 255 for none
(log entry 43). -/
def actExposeQuery (s : State) : State × Reply :=
  (s, .accept (s.ex.report ++ sixteens.flatMap s.slotReport ++ opt8 (s.ex.queued.head?.map (·.slot.val)) ++
    opt8 (s.ex.exposing.map (fun _ => if s.sa.assembly.isNone then 1 else 0))))

end Sys2Proof.Machine
end

