-- ==== Sys2Proof/Machine/Link.lean ====
section
/-! DEFINITION. The Order Link Unit: the receiver (R168 to R171), the frame stores and the dispatcher (R172 to R175), its own
orders (R178, R181, R183), the transmitter's events (R172, R176), and resets and start-up (R179 to R182). -/

namespace Sys2Proof.Machine

/-! ### The orders of the OLU (R178, R181, R183) -/

/-- STATUS (R178). The map lock, set or clear, is coded as a yes-or-no value, 1 for set: the model's choice (log entry 57). -/
def actStatus (s : State) : State × Reply :=
  (s, .accept (s.olu.record.bytes ++ u8 s.olu.notices.length ++ u8 s.olu.lost ++ u8 s.ex.state.code ++ u8 s.sq.state.code ++
    fours.flatMap (fun c => u8 s.ch[c].state.code) ++ yesNo s.fdm.lock))

/-- RESET (R181): answered at once; the reset follows the answer's last byte. -/
def actReset (s : State) : State × Reply := ({ s with olu := { s.olu with resetDue := true } }, .accept [])

/-- RECORD_CLEAR (R183): the record is cleared, and the answer gives it as it stood before. -/
def actRecordClear (s : State) : State × Reply :=
  ({ s with olu := { s.olu with record := ⟨false, false, false, 0, .none⟩ } }, .accept s.olu.record.bytes)

/-! ### Dispatch (R173, R174) -/

/-- R174: the owning block takes an order in one step. -/
def Order.act (tag target : Byte) : Order → State → State × Reply
  | .copy us => actCopy tag target us
  | .channelSet fs => actChannelSet target fs
  | .column top => actColumn target top
  | .cancel => actCancel target
  | .release => actRelease target
  | .channelQuery => actChannelQuery target
  | .faceDefine f b n => actFaceDefine f b n
  | .faceWithdraw f => actFaceWithdraw f
  | .mapLock => actMapLock
  | .faceQuery f => actFaceQuery f
  | .mount f => actMount f
  | .fetchSet fs => actFetchSet fs
  | .storeWrite p o d => actStoreWrite p o d
  | .storeErase b => actStoreErase b
  | .storeBlank f l d => actStoreBlank f l d
  | .storeRead p o n => actStoreRead tag p o n
  | .storeMode m l => actStoreMode m l
  | .storeClear => actStoreClear
  | .storeAbort => actStoreAbort
  | .storeWindow f l => actStoreWindow f l
  | .storeQuery => actStoreQuery
  | .filmCut => actFilmCut
  | .exposeSet fs => actExposeSet fs
  | .exposeHold => actExposeHold
  | .exposeResume => actExposeResume
  | .exposeQuery => actExposeQuery
  | .status => actStatus
  | .reset => actReset
  | .recordClear => actRecordClear

/-- R173, test 3, the target: an order that carries no channel has target 0. -/
def Order.targetOk (o : Order) (target : Byte) : Bool := o.forChannel || target == 0

/-- R186: the OLU's FORM refusal of an order: detail 65535 for a COPY, 0 for the others. -/
def formRefusal (kind : Byte) : Reply := if kind = 0x10 then .refuse .form 65535 else .no .form

/-- The order comes into the dispatcher's hand (R174). -/
def State.inHand (h : Head) (s : State) : State := { s with olu := { s.olu with inHand := some h } }

/-- R173, R174: the dispatcher takes an order whose body makes its fields: the form test, then the owning block. -/
def State.takeOrder (h : Head) (o : Order) (s : State) : State :=
  if o.formOk && o.targetOk h.target then
    let r := o.act h.tag h.target (s.inHand h)
    r.1.answer r.2
  else (s.inHand h).answer (formRefusal h.kind)

/-- R173: the dispatcher takes a frame. -/
def State.takeFrame (f : Frame) (s : State) : State :=
  let h : Head := ⟨f.kind, f.tag, f.target⟩
  if f.checkOk = false then (s.inHand h).answer (.no .check)
  else match decodeOrder f.kind f.body with
    | .ok o => s.takeOrder h o
    | .error .unknown => (s.inHand h).answer (.no .unknown)
    | .error .form => (s.inHand h).answer (formRefusal f.kind)

/-- DISPATCH (R174): with the previous answer sent, the dispatcher takes the oldest waiting frame. -/
def execDispatch (s : State) : Host.Outcome State Fault Refusal :=
  match s.olu.phase, s.olu.inHand, s.olu.frames with
  | .running, none, f :: rest => .next (State.takeFrame f { s with olu := { s.olu with frames := rest } }).settle
  | _, _, _ => .next s.settle

/-! ### The receiver (R168 to R172) -/

/-- The start byte (section 11.2). -/
def startByte : Byte := 0xE5

/-- R168: the six bytes after a start byte make a good header: they sum to 0 modulo 256, and the length is at most 1,536. -/
def headerPasses (six : Bytes) : Bool :=
  six.length == 6 && six.foldl (· + ·) 0 == 0 && decide ((word (six.getD 3 0) (six.getD 4 0)).toNat ≤ 1536)

/-- R172: a frame store is free for a header. -/
def Olu.storeFree (o : Olu) : Bool := decide (o.storesOccupied < 2)

/-- R169: a good header is taken into a frame store; a frame of body length 0 is handed on at once (log entry 24). -/
def Olu.takeHeader (six : Bytes) (o : Olu) : Olu :=
  let kind := six.getD 0 0
  let tag := six.getD 1 0
  let target := six.getD 2 0
  let len := (word (six.getD 3 0) (six.getD 4 0)).toNat
  if len = 0 then { o with receiver := .waiting, frames := o.frames ++ [⟨kind, tag, target, [], true⟩] }
  else { o with receiver := .body kind tag target len [] }

/-- R170: the search of the bytes in hand: a header that passes, or the bytes still to be searched. A candidate is tested when its
sixth byte arrives, so no byte follows it. -/
def hunt (free : Bool) : Bytes → Except Bytes Bytes
  | [] => .error []
  | b :: rest =>
    if b ≠ startByte then hunt free rest
    else if rest.length < 6 then .error (b :: rest)
    else if headerPasses (rest.take 6) && free then .ok (rest.take 6)
    else hunt free rest

/-- R170: the receiver hunts through the bytes given. -/
def Olu.huntOn (buf : Bytes) (o : Olu) : Olu :=
  let o' := { o with receiver := .waiting }
  match hunt o'.storeFree buf with
  | .ok six => o'.takeHeader six
  | .error rest => { o with receiver := .hunting rest }

/-- R169, R173: a frame's last byte has come: the body check is compared, and the frame is handed to the dispatcher; a mismatch
starts an attention pulse (R171). -/
def Olu.takeBody (kind tag target : Byte) (len : Nat) (got : Bytes) (now : Nat) (o : Olu) : Olu :=
  let body := got.take len
  let ok := u16 (bodyCheck body).toNat == got.drop len
  { o with
    receiver := .waiting, frames := o.frames ++ [⟨kind, tag, target, body, ok⟩],
    pulse := if ok then o.pulse else some (now + 10) }

/-- R169: the receiver takes a byte; it is dropped in reset and start-up (R179, R182). -/
def Olu.rxByte (now : Nat) (o : Olu) (b : Byte) : Olu :=
  if o.phase ≠ .running then o
  else match o.receiver with
  | .waiting => if b = startByte then { o with receiver := .header [] } else o
  | .header got =>
    let six := got ++ [b]
    if six.length < 6 then { o with receiver := .header six }
    else if headerPasses six && o.storeFree then o.takeHeader six
    else o.huntOn six
  | .body kind tag target len got =>
    let all := got ++ [b]
    if all.length < len + 2 then { o with receiver := .body kind tag target len all }
    else o.takeBody kind tag target len all now
  | .hunting buf => o.huntOn (buf ++ [b])

/-- The receiver takes bytes in order of arrival. -/
def State.rxBytes (bs : Bytes) (s : State) : State := { s with olu := bs.foldl (Olu.rxByte s.time) s.olu }

/-- HEADER_RECEIVED (R169): bytes arrive on the receive pair (log entry 8). -/
def execHeaderReceived (bytes : Bytes) (s : State) : Host.Outcome State Fault Refusal := .next (s.rxBytes bytes).settle

/-- HUNT_CANDIDATE (R170): bytes arrive on the receive pair (log entry 8). -/
def execHuntCandidate (bytes : Bytes) (s : State) : Host.Outcome State Fault Refusal := .next (s.rxBytes bytes).settle

/-- FRAME_RECEIVED (R169): bytes arrive on the receive pair (log entry 8). -/
def execFrameReceived (bytes : Bytes) (s : State) : Host.Outcome State Fault Refusal := .next (s.rxBytes bytes).settle

/-- ATTENTION_PULSE_EXPIRY (R171): a running pulse ends; the timebase has reached its end (log entry 11). -/
def execAttentionPulseExpiry (s : State) : Host.Outcome State Fault Refusal :=
  match s.olu.pulse with
  | some d => .next ({ s with time := max s.time d, olu := { s.olu with pulse := none } } : State).settle
  | none => .next s.settle

/-! ### Whole orders (log entry 7) -/

/-- The frame of an order as the front end sends it (section 11.2). -/
def orderBytes (h : Head) (o : Order) : Bytes := Return.bytes ⟨h.kind, h.tag, h.target, o.body⟩

/-- R169, R172: the receiver can take a whole good frame of an order. -/
def State.canTake (o : Order) (s : State) : Bool :=
  s.olu.phase == .running && s.olu.receiver == .waiting && s.olu.storeFree && decide (o.body.length ≤ 1536)

/-- An order sent as one good frame: taken by the dispatcher at once when nothing waits before it, left in a frame store
otherwise; a part that cannot take it whole takes its bytes as they come (log entry 7). -/
def State.giveOrder (tag target : Byte) (o : Order) (s : State) : State :=
  let h : Head := ⟨o.kind, tag, target⟩
  if s.canTake o then
    if s.olu.inHand = none ∧ s.olu.frames = [] then s.takeOrder h o
    else { s with olu := { s.olu with frames := s.olu.frames ++ [⟨o.kind, tag, target, o.body, true⟩] } }
  else s.rxBytes (orderBytes h o)

/-! ### Resets and start-up (R179 to R182) -/

/-- R179: where a reset leaves the part: in reset while the reset line is low, in start-up otherwise. -/
def Olu.afterReset (o : Olu) : Phase := if o.resetLow then .inReset else .startup

/-- POWER_ON (R180): every block takes its values after reset, and start-up follows power good (log entry 31). -/
def execPowerOn (s : State) : Host.Outcome State Fault Refusal := .next (s.resetTo {} s.olu.afterReset).settle

/-- RESET_LINE_ASSERT (R179, R180): the reset line goes low. -/
def execResetLineAssert (s : State) : Host.Outcome State Fault Refusal :=
  if s.olu.resetLow then .next s.settle
  else
    let t := s.resetTo { s.olu.record.note s.sq.inFlight with line := true } .inReset
    .next ({ t with olu := { t.olu with resetLow := true } } : State).settle

/-- RESET_LINE_RELEASE (R179, R182): the reset line returns high and start-up begins: the timebase starts from 0, and a close is
sent to each bank. -/
def execResetLineRelease (s : State) : Host.Outcome State Fault Refusal :=
  if s.olu.resetLow then
    .next ({ s with
      olu := { s.olu with resetLow := false, phase := .startup },
      fs := { s.fs with closing := Vector.replicate 8 true }, time := 0 } : State).settle
  else .next s.settle

/-- STARTUP_END (R182): the store has reported all eight closes: the receiver enters WAITING, and RESET_DONE goes ahead of any
notice posted meanwhile (log entry 28). -/
def execStartupEnd (s : State) : Host.Outcome State Fault Refusal :=
  if s.olu.phase = .startup ∧ s.fs.closing = Vector.replicate 8 false then
    .next ({ s with olu := { s.olu with
      phase := .running, receiver := .waiting,
      notices := (Notice.resetDone s.olu.record :: s.olu.notices).take 32, lost := 0 } } : State).settle
  else .next s.settle

/-! ### The transmitter's events (R172, R176, R181) -/

/-- A return is an answer (section 11.2). -/
def Return.isAnswer (r : Return) : Bool := r.kind == 0x80 || r.kind == 0x81

/-- R181: the reset of a RESET order whose answer has been sent. -/
def State.orderReset (s : State) : State :=
  s.resetTo { s.olu.record.note s.sq.inFlight with order := true } s.olu.afterReset

/-- ANSWER_SENT (R172): the answer's last byte has been sent, and any before it that had not gone (log entry 58): its frame store is
free, and a RESET takes effect (R181). -/
def execAnswerSent (s : State) : Host.Outcome State Fault Refusal :=
  match s.olu.sending with
  | some r =>
    if r.isAnswer then
      if s.olu.resetDue then .next s.orderReset.settle
      else .next ({ s with olu := { s.olu with sending := none, sent := 0, inHand := none } } : State).settle
    else .next s.settle
  | none => .next s.settle

/-- NOTICE_SENT (R176): the notice's last byte has been sent, and any before it that had not gone (log entry 58): the transmitter is
free. -/
def execNoticeSent (s : State) : Host.Outcome State Fault Refusal :=
  match s.olu.sending with
  | some r =>
    if r.isAnswer then .next s.settle
    else .next ({ s with olu := { s.olu with sending := none, sent := 0 } } : State).settle
  | none => .next s.settle

end Sys2Proof.Machine
end

