-- ==== Sys2Proof/Machine/Orders.lean ====
section
/-! DEFINITION. The orders as commands: each is the front end's order sent as one good frame (R169, R174, log entry 7). What its
owning block does is in the block's own file. -/

namespace Sys2Proof.Machine

/-- COPY (R65): `actCopy`. -/
def execCopy (tag target : Byte) (units : List RawUnit) (s : State) : Host.Outcome State Fault Refusal :=
  .next (s.giveOrder tag target (.copy units)).settle

/-- CHANNEL_SET (R59): `actChannelSet`. -/
def execChannelSet (tag target : Byte) (fields : List FieldEntry) (s : State) : Host.Outcome State Fault Refusal :=
  .next (s.giveOrder tag target (.channelSet fields)).settle

/-- COLUMN (R61): `actColumn`. -/
def execColumn (tag target : Byte) (top : BitVec 32) (s : State) : Host.Outcome State Fault Refusal :=
  .next (s.giveOrder tag target (.column top)).settle

/-- CANCEL (R70): `actCancel`. -/
def execCancel (tag target : Byte) (s : State) : Host.Outcome State Fault Refusal :=
  .next (s.giveOrder tag target .cancel).settle

/-- RELEASE (R71): `actRelease`. -/
def execRelease (tag target : Byte) (s : State) : Host.Outcome State Fault Refusal :=
  .next (s.giveOrder tag target .release).settle

/-- CHANNEL_QUERY (R72): `actChannelQuery`. -/
def execChannelQuery (tag target : Byte) (s : State) : Host.Outcome State Fault Refusal :=
  .next (s.giveOrder tag target .channelQuery).settle

/-- FACE_DEFINE (R19): `actFaceDefine`. -/
def execFaceDefine (tag target face : Byte) (base size : Word) (s : State) : Host.Outcome State Fault Refusal :=
  .next (s.giveOrder tag target (.faceDefine face base size)).settle

/-- FACE_WITHDRAW (R20): `actFaceWithdraw`. -/
def execFaceWithdraw (tag target face : Byte) (s : State) : Host.Outcome State Fault Refusal :=
  .next (s.giveOrder tag target (.faceWithdraw face)).settle

/-- MAP_LOCK (R22): `actMapLock`. -/
def execMapLock (tag target : Byte) (s : State) : Host.Outcome State Fault Refusal :=
  .next (s.giveOrder tag target .mapLock).settle

/-- FACE_QUERY (R23): `actFaceQuery`. -/
def execFaceQuery (tag target face : Byte) (s : State) : Host.Outcome State Fault Refusal :=
  .next (s.giveOrder tag target (.faceQuery face)).settle

/-- MOUNT (R31): `actMount`. -/
def execMount (tag target face : Byte) (s : State) : Host.Outcome State Fault Refusal :=
  .next (s.giveOrder tag target (.mount face)).settle

/-- FETCH_SET (R116): `actFetchSet`. -/
def execFetchSet (tag target : Byte) (fields : List FieldEntry) (s : State) : Host.Outcome State Fault Refusal :=
  .next (s.giveOrder tag target (.fetchSet fields)).settle

/-- STORE_WRITE (R122): `actStoreWrite`. -/
def execStoreWrite (tag target : Byte) (page offset : Word) (data : Bytes) (s : State) : Host.Outcome State Fault Refusal :=
  .next (s.giveOrder tag target (.storeWrite page offset data)).settle

/-- STORE_ERASE (R126): `actStoreErase`. -/
def execStoreErase (tag target block : Byte) (s : State) : Host.Outcome State Fault Refusal :=
  .next (s.giveOrder tag target (.storeErase block)).settle

/-- STORE_BLANK (R130): `actStoreBlank`. -/
def execStoreBlank (tag target : Byte) (first last : Word) (direction : Byte) (s : State) : Host.Outcome State Fault Refusal :=
  .next (s.giveOrder tag target (.storeBlank first last direction)).settle

/-- STORE_READ (R131): `actStoreRead`. -/
def execStoreRead (tag target : Byte) (page offset length : Word) (s : State) : Host.Outcome State Fault Refusal :=
  .next (s.giveOrder tag target (.storeRead page offset length)).settle

/-- STORE_MODE (R129): `actStoreMode`. -/
def execStoreMode (tag target mode limit : Byte) (s : State) : Host.Outcome State Fault Refusal :=
  .next (s.giveOrder tag target (.storeMode mode limit)).settle

/-- STORE_CLEAR (R133): `actStoreClear`. -/
def execStoreClear (tag target : Byte) (s : State) : Host.Outcome State Fault Refusal :=
  .next (s.giveOrder tag target .storeClear).settle

/-- STORE_ABORT (R132): `actStoreAbort`. -/
def execStoreAbort (tag target : Byte) (s : State) : Host.Outcome State Fault Refusal :=
  .next (s.giveOrder tag target .storeAbort).settle

/-- STORE_WINDOW (R134): `actStoreWindow`. -/
def execStoreWindow (tag target first last : Byte) (s : State) : Host.Outcome State Fault Refusal :=
  .next (s.giveOrder tag target (.storeWindow first last)).settle

/-- STORE_QUERY (R135): `actStoreQuery`. -/
def execStoreQuery (tag target : Byte) (s : State) : Host.Outcome State Fault Refusal :=
  .next (s.giveOrder tag target .storeQuery).settle

/-- FILM_CUT (R148): `actFilmCut`. -/
def execFilmCut (tag target : Byte) (s : State) : Host.Outcome State Fault Refusal :=
  .next (s.giveOrder tag target .filmCut).settle

/-- EXPOSE_SET (R151): `actExposeSet`. -/
def execExposeSet (tag target : Byte) (fields : List FieldEntry) (s : State) : Host.Outcome State Fault Refusal :=
  .next (s.giveOrder tag target (.exposeSet fields)).settle

/-- EXPOSE_HOLD (R150): `actExposeHold`. -/
def execExposeHold (tag target : Byte) (s : State) : Host.Outcome State Fault Refusal :=
  .next (s.giveOrder tag target .exposeHold).settle

/-- EXPOSE_RESUME (R150, R155): `actExposeResume`. -/
def execExposeResume (tag target : Byte) (s : State) : Host.Outcome State Fault Refusal :=
  .next (s.giveOrder tag target .exposeResume).settle

/-- EXPOSE_QUERY (R152): `actExposeQuery`. -/
def execExposeQuery (tag target : Byte) (s : State) : Host.Outcome State Fault Refusal :=
  .next (s.giveOrder tag target .exposeQuery).settle

/-- STATUS (R178): `actStatus`. -/
def execStatus (tag target : Byte) (s : State) : Host.Outcome State Fault Refusal :=
  .next (s.giveOrder tag target .status).settle

/-- RESET (R181): `actReset`. -/
def execReset (tag target : Byte) (s : State) : Host.Outcome State Fault Refusal :=
  .next (s.giveOrder tag target .reset).settle

/-- RECORD_CLEAR (R183): `actRecordClear`. -/
def execRecordClear (tag target : Byte) (s : State) : Host.Outcome State Fault Refusal :=
  .next (s.giveOrder tag target .recordClear).settle

end Sys2Proof.Machine
end

