-- ==== Sys2Proof/Machine/Dispatch.lean ====
section
/-! DEFINITION. The meaning of each command: one arm for each constructor of Instr. -/

namespace Sys2Proof.Machine

/-- What a command does to everything but the queue of commands. -/
def exec (i : Instr) (s : State) : Host.Outcome State Fault Refusal :=
  match i with
  | .copy tag target units => Sys2Proof.Machine.execCopy tag target units s
  | .channelSet tag target fields => Sys2Proof.Machine.execChannelSet tag target fields s
  | .column tag target top => Sys2Proof.Machine.execColumn tag target top s
  | .cancel tag target => Sys2Proof.Machine.execCancel tag target s
  | .release tag target => Sys2Proof.Machine.execRelease tag target s
  | .channelQuery tag target => Sys2Proof.Machine.execChannelQuery tag target s
  | .faceDefine tag target face base size => Sys2Proof.Machine.execFaceDefine tag target face base size s
  | .faceWithdraw tag target face => Sys2Proof.Machine.execFaceWithdraw tag target face s
  | .mapLock tag target => Sys2Proof.Machine.execMapLock tag target s
  | .faceQuery tag target face => Sys2Proof.Machine.execFaceQuery tag target face s
  | .mount tag target face => Sys2Proof.Machine.execMount tag target face s
  | .fetchSet tag target fields => Sys2Proof.Machine.execFetchSet tag target fields s
  | .storeWrite tag target page offset data => Sys2Proof.Machine.execStoreWrite tag target page offset data s
  | .storeErase tag target block => Sys2Proof.Machine.execStoreErase tag target block s
  | .storeBlank tag target first last direction => Sys2Proof.Machine.execStoreBlank tag target first last direction s
  | .storeRead tag target page offset length => Sys2Proof.Machine.execStoreRead tag target page offset length s
  | .storeMode tag target mode limit => Sys2Proof.Machine.execStoreMode tag target mode limit s
  | .storeClear tag target => Sys2Proof.Machine.execStoreClear tag target s
  | .storeAbort tag target => Sys2Proof.Machine.execStoreAbort tag target s
  | .storeWindow tag target first last => Sys2Proof.Machine.execStoreWindow tag target first last s
  | .storeQuery tag target => Sys2Proof.Machine.execStoreQuery tag target s
  | .filmCut tag target => Sys2Proof.Machine.execFilmCut tag target s
  | .exposeSet tag target fields => Sys2Proof.Machine.execExposeSet tag target fields s
  | .exposeHold tag target => Sys2Proof.Machine.execExposeHold tag target s
  | .exposeResume tag target => Sys2Proof.Machine.execExposeResume tag target s
  | .exposeQuery tag target => Sys2Proof.Machine.execExposeQuery tag target s
  | .status tag target => Sys2Proof.Machine.execStatus tag target s
  | .reset tag target => Sys2Proof.Machine.execReset tag target s
  | .recordClear tag target => Sys2Proof.Machine.execRecordClear tag target s
  | .powerOn => Sys2Proof.Machine.execPowerOn s
  | .resetLineAssert => Sys2Proof.Machine.execResetLineAssert s
  | .resetLineRelease => Sys2Proof.Machine.execResetLineRelease s
  | .startupEnd => Sys2Proof.Machine.execStartupEnd s
  | .headerReceived bytes => Sys2Proof.Machine.execHeaderReceived bytes s
  | .huntCandidate bytes => Sys2Proof.Machine.execHuntCandidate bytes s
  | .frameReceived bytes => Sys2Proof.Machine.execFrameReceived bytes s
  | .attentionPulseExpiry => Sys2Proof.Machine.execAttentionPulseExpiry s
  | .dispatch => Sys2Proof.Machine.execDispatch s
  | .answerSent => Sys2Proof.Machine.execAnswerSent s
  | .noticeSent => Sys2Proof.Machine.execNoticeSent s
  | .arbiterChoice => Sys2Proof.Machine.execArbiterChoice s
  | .lineDelivery => Sys2Proof.Machine.execLineDelivery s
  | .compositionAbandon => Sys2Proof.Machine.execCompositionAbandon s
  | .mountLoadBegin => Sys2Proof.Machine.execMountLoadBegin s
  | .fetchChoice => Sys2Proof.Machine.execFetchChoice s
  | .fetchRequestEntry => Sys2Proof.Machine.execFetchRequestEntry s
  | .rowOpenDone => Sys2Proof.Machine.execRowOpenDone s
  | .transferComplete => Sys2Proof.Machine.execTransferComplete s
  | .holdDeadlineExpiry bank => Sys2Proof.Machine.execHoldDeadlineExpiry bank s
  | .bankCloseDone bank => Sys2Proof.Machine.execBankCloseDone bank s
  | .programLineDone => Sys2Proof.Machine.execProgramLineDone s
  | .erasePaused => Sys2Proof.Machine.execErasePaused s
  | .eraseDone => Sys2Proof.Machine.execEraseDone s
  | .filmArbiter => Sys2Proof.Machine.execFilmArbiter s
  | .recordSent => Sys2Proof.Machine.execRecordSent s
  | .unitDone => Sys2Proof.Machine.execUnitDone s
  | .unitFault kind => Sys2Proof.Machine.execUnitFault kind s
  | .exposureTimeout => Sys2Proof.Machine.execExposureTimeout s
  | .unknownReturnByte byte => Sys2Proof.Machine.execUnknownReturnByte byte s

end Sys2Proof.Machine
end

