-- ==== Sys2Proof/Machine/Step.lean ====
section
/-! DEFINITION. One step: the command at the front of the queue, or the progress of the engine and of the bytes going out when none waits. -/

namespace Sys2Proof.Machine

/-- One step of the part: the command at the front of the queue runs with the queue's rest. With no command waiting the
composition engine goes one step on, if it composes, and bytes may go out of the record and of the return being sent (log entries 5
and 58); otherwise nothing happens. -/
def step (s : State) : Host.Outcome State Fault Refusal :=
  match s.pending with
  | c :: rest => exec c { s with pending := rest }
  | [] => .next s.readNext.unitAcks.linkSends

/-- The state with the command that a word spells at the front of its queue. The command table gives no bits, so no word spells
one (log entry 23). -/
def State.withFetchWord (s : State) (nbits w : Nat) : State :=
  match Sys2Proof.decodeTableWord nbits w with
  | some c => { s with pending := c :: s.pending }
  | none => s

end Sys2Proof.Machine
end

