-- ==== Sys2Proof/Safety.lean ====
section
/-! DEFINITION. The terms that claims use: what it is for an order to be taken at once and answered, and the laws of the whole part
that every step keeps. -/

namespace Sys2Proof.Machine

/-! ### Orders taken at once -/

/-- The order link is free: the part runs, the receiver is WAITING, and no order is in hand or waiting (R169, R172, R174). -/
def State.linkFree (s : State) : Prop :=
  s.olu.phase = .running ∧ s.olu.receiver = .waiting ∧ s.olu.frames = [] ∧ s.olu.inHand = none

/-- The state in which an order has been answered: it is in the dispatcher's hand, its answer is in the answer slot, and a free
transmitter has taken its next return (R174, R176, R186). -/
def State.answered (kind tag target : Byte) (r : Reply) (s : State) : State :=
  (State.answer r (s.inHand ⟨kind, tag, target⟩)).settle

/-- The target that names a channel (R185). -/
def chByte (c : Fin 4) : Byte := BitVec.ofNat 8 c.val

/-- R67: what the eligibility test gives for a copy buffer: PENDING when it holds an END_LINE or END_PARA or at least 512 units, IDLE
otherwise. -/
def eligibility (buffer : List BufUnit) : ChannelState :=
  if buffer.any (fun u => isEnd u.unit) ∨ 512 ≤ buffer.length then .pending else .idle

/-- Every byte of the store outside the `n` addresses from `a` reads in `t` as it does in `s`. -/
def sameOutside (a n : Nat) (s t : State) : Prop := ∀ x, (x < a ∨ a + n ≤ x) → readByte t.store x = readByte s.store x

/-- Every byte of the store reads in `t` as it does in `s`. -/
def sameStore (s t : State) : Prop := ∀ x, readByte t.store x = readByte s.store x

/-! ### A suspended erase -/

/-- R112, R128: from `v`, where a transfer's completion has served its requester, to `t`: a suspended erase resumes, claiming the eight
banks, when no fetch is left, and stays suspended where one is. Where none was left before a request that the delivery made, it may
do either (free: log entry 22). -/
def State.resumes (wasIdle : Bool) (v t : State) : Prop :=
  let resumed (u : State) : State := { u with fs := { u.fs with banks := Vector.replicate 8 .busy }, sq := { u.sq with state := .erasing } }
  let next : State := { v with serial := v.serial + 1 }
  if v.sq.state ≠ .eraseSuspended then t = v
  else if v.fs.isIdle = true then t = resumed v
  else if wasIdle = true then t = next ∨ t = resumed next
  else t = v

/-! ### The strike port -/

/-- R164: what the SA does next at `u`, its outcome the second state. With the lane busy, or no assembly, it does nothing. With the
lane free, LINE_END is sent after the last record; a record whose buffer is FILLED is sent with its master; one whose buffer is not
FILLED is waited for; and an omitted one (R163) is passed over, its buffer FREE for the next master (R162), and the SA goes on. That an omitted record
waits for the lane is the model's (log entry 55). -/
inductive State.SendsNext : State → State → Prop
  | busy {u : State} : u.sa.lane ≠ [] → SendsNext u u
  | idle {u : State} : u.sa.assembly = none → SendsNext u u
  | ends {u : State} {w : Assembly} : u.sa.lane = [] → u.sa.assembly = some w → w.list.length ≤ w.sendPoint →
      SendsNext u { u with sa := { u.sa with lane := [.lineEnd] } }
  | waits {u : State} {w : Assembly} : u.sa.lane = [] → u.sa.assembly = some w → w.sendPoint < w.list.length →
      u.sa.filledFor w.sendPoint = none → SendsNext u u
  | sends {u : State} {w : Assembly} {r : StrikeRec} {b : Fin 8} {data : Bytes} : u.sa.lane = [] → u.sa.assembly = some w →
      w.list[w.sendPoint]? = some r → u.sa.filledFor w.sendPoint = some (b, data, false) →
      SendsNext u { u with sa := { u.sa with lane := [r.outRecord (masterBytes data)] } }
  | passes {u t : State} {w : Assembly} {b : Fin 8} {data : Bytes} : u.sa.lane = [] → u.sa.assembly = some w →
      w.sendPoint < w.list.length → u.sa.filledFor w.sendPoint = some (b, data, true) →
      SendsNext (State.pumpSa { u with sa := { u.sa with
        assembly := some { w with sendPoint := w.sendPoint + 1 }, buffers := setAt u.sa.buffers b .free } }) t →
      SendsNext u t

/-- R146, R161: the exposure of the QUEUED line q begins at `s` and leads to `t`: the line leaves the queue as the EXPOSING line with
its travel, the film moves to its baseline, LINE_BEGIN is sent, and the strike list is its records within the exposure field, the
line marked CLIPPED when one lies off it; nothing else changes but the SA's fetches and the transmitter's next choice. -/
def State.exposes (q : QueuedLine) (s t : State) : Prop :=
  let b := q.line.header.baseline
  let all := fullList s.fdm q.line
  let marks := q.line.header.marks
  ∃ x w, x.slot = q.slot ∧ x.bypass = q.bypass ∧ x.travel = (b : Int) - s.ex.film ∧
    x.line = { q.line with header := { q.line.header with marks := { marks with
      clipped := marks.clipped || all.any (fun r => r.offField) } } } ∧
    t.ex = { s.ex with
      state := .exposing, chosen := none, queued := s.ex.queued.filter (fun y => y.slot != q.slot), exposing := some x,
      film := b, high := max s.ex.high b } ∧
    t.sa.lane = s.sa.lane ++ [.lineBegin q.line.header.tag x.travel] ∧ t.sa.acked = s.sa.acked ∧
    t.sa.assembly = some w ∧ w.list = all.filter (fun r => !r.offField) ∧ w.sendPoint = 0 ∧
    t.olu = s.olu.transmit ∧ t.fdm = s.fdm ∧ t.ch = s.ch ∧ t.ce = s.ce ∧ t.sq = s.sq ∧ t.store = s.store ∧ t.time = s.time

/-! ### Laws every step keeps -/

/-- The store is in canonical form (log entry 1). -/
def StoreLaw (s : State) : Prop := Memory.wf s.store = true

/-- R177: the notice queue holds at most 32 notices; R172: at most two frame stores are occupied; and no byte counts as sent while the
transmitter is idle, and never the last byte of the return being sent (R176, log entry 58). -/
def LinkLaw (s : State) : Prop :=
  s.olu.notices.length ≤ 32 ∧ s.olu.storesOccupied ≤ 2 ∧ (s.olu.sending = none → s.olu.sent = 0) ∧
    ∀ r, s.olu.sending = some r → s.olu.sent < r.bytes.length

/-- R109: the fetch queue never holds more than 32 requests. R111: every request but the oldest holds a bypass count of 0, and no
count is above 15; R116: neither is the bypass limit. -/
def FetchLaw (s : State) : Prop :=
  s.fs.queue.length ≤ 32 ∧ (∀ r ∈ s.fs.queue.tail, r.bypass = 0) ∧ (∀ r ∈ s.fs.queue, r.bypass ≤ 15) ∧ s.fs.bypassLimit ≤ 15

/-- R64: a channel's copy buffer never holds more than 4,096 units. -/
def CopyLaw (s : State) : Prop := ∀ c : Fin 4, s.ch[c].buffer.length ≤ 4096

/-- R18, R19: two entries that are DEFINED or WITHDRAWING have regions that share no page. -/
def RegionLaw (s : State) : Prop :=
  ∀ f g : Fin 128, f ≠ g → s.fdm.dir[f].state ≠ .undefined → s.fdm.dir[g].state ≠ .undefined →
    overlaps s.fdm.dir[f].base s.fdm.dir[f].size s.fdm.dir[g].base s.fdm.dir[g].size = false

/-- R58, R6: the fields of a setting context that copy cannot change lie in their ranges, and its word spaces are ordered. -/
def Context.inRange (c : Context) : Prop :=
  768 ≤ c.measure ∧ c.measure ≤ 55296 ∧ c.leading ≤ 18432 ∧ c.indent ≤ 55296 ∧ c.letterLimit ≤ 200 ∧ c.elongLimit ≤ 2000 ∧
    c.wsMin ≤ c.wsOpt ∧ c.wsOpt ≤ c.wsMax ∧ c.wsMax ≤ 2000

/-- R58, R6, R60: every channel's context is in range, and will be when its pending fields are applied; only a COMPOSING channel has
pending fields. -/
def SettingLaw (s : State) : Prop :=
  ∀ c : Fin 4, s.ch[c].ctx.inRange ∧ (s.ch[c].ctx.writeAll s.ch[c].pendSet).inRange ∧
    (s.ch[c].state ≠ .composing → s.ch[c].pendSet = [])

/-- R121, R126: the program buffer holds lines only in PROGRAMMING, at most two (R123), and an erase block is recorded only in
ERASING and ERASE_SUSPENDED; so nothing is in progress while the sequencer is LOCKED. R127: an erase is suspended no more times
than the limit in force when it began. -/
def SequencerLaw (s : State) : Prop :=
  s.sq.buffer.length ≤ 2 ∧
    (s.sq.state ≠ .programming → s.sq.buffer = []) ∧
    (s.sq.state ≠ .erasing → s.sq.state ≠ .eraseSuspended → s.sq.eraseBlock = none) ∧
    s.sq.suspendCount ≤ s.sq.eraseLimit

/-- R144: the deferral count never exceeds the deferral limit. -/
def DeferralLaw (s : State) : Prop := s.ex.deferral ≤ s.ex.deferLimit

/-- R157: the unit has acknowledged no byte while the outbound lane is idle, and never the last byte of the record being sent, so the
strobe is raised exactly while the lane holds a record. -/
def LaneLaw (s : State) : Prop :=
  (s.sa.lane = [] → s.sa.acked = 0) ∧ ∀ r rest, s.sa.lane = r :: rest → s.sa.acked < r.bytes.length

/-- R138: the slots that are not FREE are distinct: each RESERVED, QUEUED and EXPOSING line has its own, so they are at most 16. -/
def SlotLaw (s : State) : Prop := s.slotsTaken.Nodup

/-- R143: every QUEUED line but the oldest holds a bypass count of 0, and no count is above 7 (R138); R151: neither is the bypass
limit. -/
def BypassLaw (s : State) : Prop :=
  (∀ q ∈ s.ex.queued.tail, q.bypass = 0) ∧ (∀ q ∈ s.ex.queued, q.bypass ≤ 7) ∧ s.ex.bypassLimit ≤ 7

/-- R140: while the film is registered, F is never less than H − R; and the line chosen ahead of a calibration is QUEUED and
reachable (R145, R146), unless a CANCEL has removed it. -/
def FilmLaw (s : State) : Prop :=
  (s.ex.registered = true → s.ex.high ≤ s.ex.film + s.ex.reach) ∧
    (s.ex.state = .calibrating → s.ex.registered = true → ∀ n, s.ex.chosen = some ⟨n, false⟩ →
      ∃ q ∈ s.ex.queued, q.slot = n ∧ s.ex.high ≤ q.line.header.baseline + s.ex.reach)

/-- R27: the number of lines being composed, queued or exposing that hold a reference to a position. -/
def State.users (p : Fin 8) (s : State) : Nat :=
  (match s.ce.comp with
    | some c => if p ∈ c.used then 1 else 0
    | none => 0) +
  (s.ex.queued.filter (fun q => decide (p ∈ q.line.used))).length +
  (match s.ex.exposing with
    | some x => if p ∈ x.line.used then 1 else 0
    | none => 0)

/-- R78: the lists of positions that lines hold references to hold each position once, and a composition holds a reference to every
position that the CHARs and FIGUREs it has read draw on. -/
def UsedLaw (s : State) : Prop :=
  (∀ c, s.ce.comp = some c → c.used.Nodup ∧ (∀ r ∈ c.read, r.unit.draws = true → r.work.drawn.pos ∈ c.used)) ∧
    (∀ q ∈ s.ex.queued, q.line.used.Nodup) ∧
    (∀ x, s.ex.exposing = some x → x.line.used.Nodup ∧ s.ex.state = .exposing)

/-- R27: a position's count is the number of lines that hold a reference to it, and a position with a nonzero count is MOUNTED;
and a load fills a position that is LOADING its face (R32). -/
def ReferenceLaw (s : State) : Prop :=
  (∀ p : Fin 8, s.fdm.pos[p].count = s.users p) ∧
    (∀ p : Fin 8, s.fdm.pos[p].count ≠ 0 → ∃ f, s.fdm.pos[p].state = .mounted f) ∧
    (∀ l, s.fdm.load = some l → s.fdm.pos[l.pos].state = .loading l.face)

end Sys2Proof.Machine
end

