-- ==== Sys2Proof/WellFormed.lean ====
section
/-! DEFINITION. Well-formed commands: the orders that a front end can send and the order link passes on (R173, R184, R185), and the
events that can arrive. Values out of a range are well formed: they are clamped, or refused by the owning block. -/

namespace Sys2Proof

open Sys2Proof.Machine

/-- The tag, target and order of a command that is an order. -/
def orderOf : Instr → Option (Byte × Byte × Order)
  | .copy t g us => some (t, g, .copy us)
  | .channelSet t g fs => some (t, g, .channelSet fs)
  | .column t g top => some (t, g, .column top)
  | .cancel t g => some (t, g, .cancel)
  | .release t g => some (t, g, .release)
  | .channelQuery t g => some (t, g, .channelQuery)
  | .faceDefine t g f b n => some (t, g, .faceDefine f b n)
  | .faceWithdraw t g f => some (t, g, .faceWithdraw f)
  | .mapLock t g => some (t, g, .mapLock)
  | .faceQuery t g f => some (t, g, .faceQuery f)
  | .mount t g f => some (t, g, .mount f)
  | .fetchSet t g fs => some (t, g, .fetchSet fs)
  | .storeWrite t g p o d => some (t, g, .storeWrite p o d)
  | .storeErase t g b => some (t, g, .storeErase b)
  | .storeBlank t g f l d => some (t, g, .storeBlank f l d)
  | .storeRead t g p o n => some (t, g, .storeRead p o n)
  | .storeMode t g m l => some (t, g, .storeMode m l)
  | .storeClear t g => some (t, g, .storeClear)
  | .storeAbort t g => some (t, g, .storeAbort)
  | .storeWindow t g f l => some (t, g, .storeWindow f l)
  | .storeQuery t g => some (t, g, .storeQuery)
  | .filmCut t g => some (t, g, .filmCut)
  | .exposeSet t g fs => some (t, g, .exposeSet fs)
  | .exposeHold t g => some (t, g, .exposeHold)
  | .exposeResume t g => some (t, g, .exposeResume)
  | .exposeQuery t g => some (t, g, .exposeQuery)
  | .status t g => some (t, g, .status)
  | .reset t g => some (t, g, .reset)
  | .recordClear t g => some (t, g, .recordClear)
  | .powerOn => none
  | .resetLineAssert => none
  | .resetLineRelease => none
  | .startupEnd => none
  | .headerReceived _ => none
  | .huntCandidate _ => none
  | .frameReceived _ => none
  | .attentionPulseExpiry => none
  | .dispatch => none
  | .answerSent => none
  | .noticeSent => none
  | .arbiterChoice => none
  | .lineDelivery => none
  | .compositionAbandon => none
  | .mountLoadBegin => none
  | .fetchChoice => none
  | .fetchRequestEntry => none
  | .rowOpenDone => none
  | .transferComplete => none
  | .holdDeadlineExpiry _ => none
  | .bankCloseDone _ => none
  | .programLineDone => none
  | .erasePaused => none
  | .eraseDone => none
  | .filmArbiter => none
  | .recordSent => none
  | .unitDone => none
  | .unitFault _ => none
  | .exposureTimeout => none
  | .unknownReturnByte _ => none

/-- R185: the target an order may carry: a channel 0 to 3 for a channel order, 0 for every other. -/
def targetWf (o : Order) (target : Byte) : Bool := if o.forChannel then decide (target.toNat < 4) else target == 0

/-- R59, R65, R116, R151: the fields an owning block tests for FORM. -/
def fieldsWf : Order → Bool
  | .copy us => us.all (fun u => (decodeUnit u).isSome)
  | .channelSet fs => channelFieldsOk fs
  | .fetchSet fs => fieldsOk 2 fs
  | .exposeSet fs => fieldsOk 6 fs
  | _ => true

/-- A well-formed command. -/
def Instr.wf (i : Instr) : Bool :=
  match orderOf i with
  | some (_, target, o) => o.formOk && targetWf o target && fieldsWf o
  | none =>
    match i with
    | .unknownReturnByte b => b != 0x71 && b != 0x72
    | _ => true

end Sys2Proof
end

