-- ==== Sys2Proof/Certificates/Slice0/Obligations.lean ====
section
/-! DEFINITION. The statements for the provers. An order's statement is about an order sent as one good frame on a free order link
(`State.linkFree`), and gives the whole next state: the state with the order's own effect, `answered` with the order's reply. -/

open Sys2Proof Sys2Proof.Machine

/-! ### The step, frames and dispatch -/

/-- A step takes the command at the front of the queue and is that command's meaning on the state with the queue's rest. With none
waiting the composition engine goes one step on; the unit acknowledges some number, it may be none, of the bytes before the last of
the record being sent, and the byte after them is presented (section 9.1); some number of the bytes before the last of the return
being sent goes out on the transmit pair (section 10.6); and nothing else changes but the model's serial number. The queue and that
step are the model's own (log entries 5 and 58). -/
def Obligations.StepRunsFrontCommand : Prop :=
  (∀ (s : State) (c : Instr) (rest : List Instr), s.pending = c :: rest → step s = exec c { s with pending := rest }) ∧
  (∀ s : State, s.pending = [] →
    s.readNext = { s with fdm := s.readNext.fdm, ce := { s.ce with comp := s.readNext.ce.comp } } ∧
    ∃ acks sends k t, step s = .next t ∧
      t = { s.readNext with
        sa := { s.sa with acked := s.sa.acked + acks }, olu := { s.olu with sent := s.olu.sent + sends }, serial := k } ∧
      (s.sa.lane = [] → acks = 0 ∧ t.sa.strobeHigh = false) ∧
      (∀ r rest, s.sa.lane = r :: rest → s.sa.acked < r.bytes.length →
        s.sa.acked + acks < r.bytes.length ∧ t.sa.strobeHigh = true ∧ t.sa.presented = r.bytes[s.sa.acked + acks]?) ∧
      (s.olu.sending = none → sends = 0 ∧ t.olu.txByte = none) ∧
      (∀ r, s.olu.sending = some r → s.olu.sent < r.bytes.length →
        s.olu.sent + sends < r.bytes.length ∧ t.olu.txByte = r.bytes[s.olu.sent + sends]?))

/-- Section 11.4, R185: an order's body decodes to the order; and what a frame decodes to has the frame's kind and exactly its body,
so no byte of a body is dropped. -/
def Obligations.OrderBodiesDecodeAndEncode : Prop :=
  (∀ o : Order, decodeOrder o.kind o.body = .ok o) ∧
    (∀ (kind : Byte) (body : Bytes) (o : Order), decodeOrder kind body = .ok o → o.kind = kind ∧ o.body = body)

/-- Sections 10.2 to 10.4: a good frame that arrives whole with a frame store free waits for the dispatcher, whatever its kind and
body, and nothing else changes but the transmitter's next choice. -/
def Obligations.GoodFrameIsTakenWhole : Prop :=
  ∀ (s : State) (kind tag target : Byte) (body : Bytes),
    s.olu.phase = .running → s.olu.receiver = .waiting → s.olu.storesOccupied < 2 → body.length ≤ 1536 →
      exec (.frameReceived (Return.bytes ⟨kind, tag, target, body⟩)) s =
        .next ({ s with olu := { s.olu with frames := s.olu.frames ++ [⟨kind, tag, target, body, true⟩] } } : State).settle

/-- Sections 10.2 to 10.4: in WAITING and in a hunt with nothing in hand, a start byte and six bytes that make a good header of a
body of 1 to 1,536 bytes open a body when a frame store is free, a good header of length 0 hands its frame on, its body
check counted good (the model's: log entry 24), and any other header leaves the receiver hunting. -/
def Obligations.HeaderOpensBodyOrHunt : Prop :=
  ∀ (s : State) (kind tag target hi lo check : Byte),
    s.olu.phase = .running → s.olu.receiver = .waiting ∨ s.olu.receiver = .hunting [] →
      let six := [kind, tag, target, hi, lo, check]
      let len := (word hi lo).toNat
      let good := kind + tag + target + hi + lo + check = 0 ∧ len ≤ 1536 ∧ s.olu.storesOccupied < 2
      (good → 0 < len → ∀ c ∈ [Instr.headerReceived (startByte :: six), Instr.huntCandidate (startByte :: six)],
        exec c s = .next ({ s with olu := { s.olu with receiver := .body kind tag target len [] } } : State).settle) ∧
      (good → len = 0 → ∀ c ∈ [Instr.headerReceived (startByte :: six), Instr.huntCandidate (startByte :: six)],
        exec c s = .next ({ s with olu := { s.olu with
          receiver := .waiting, frames := s.olu.frames ++ [⟨kind, tag, target, [], true⟩] } } : State).settle) ∧
      (¬ good → ∀ c ∈ [Instr.headerReceived (startByte :: six), Instr.huntCandidate (startByte :: six)],
        ∃ rest, exec c s = .next ({ s with olu := { s.olu with receiver := .hunting rest } } : State).settle)

/-- Sections 10.3 and 10.5: a frame whose body check does not match waits for the dispatcher marked so, and starts an attention
pulse of 10 ticks; the pulse's expiry ends it, the timebase having reached its end (log entry 11). -/
def Obligations.BodyFailureStartsAttentionPulse : Prop :=
  (∀ (s : State) (kind tag target : Byte) (len : Nat) (got : Bytes) (b : Byte),
    s.olu.phase = .running → s.olu.receiver = .body kind tag target len got → got.length = len + 1 →
    u16 (bodyCheck ((got ++ [b]).take len)).toNat ≠ (got ++ [b]).drop len →
      exec (.frameReceived [b]) s =
        .next ({ s with olu := { s.olu with
          receiver := .waiting, frames := s.olu.frames ++ [⟨kind, tag, target, (got ++ [b]).take len, false⟩],
          pulse := some (s.time + 10) } } : State).settle) ∧
  (∀ (s : State) (d : Nat), s.olu.pulse = some d →
    exec .attentionPulseExpiry s =
      .next ({ s with time := max s.time d, olu := { s.olu with pulse := none } } : State).settle)

/-- Section 10.5: DISPATCH takes the oldest frame and makes the link's tests in their order: CHECK, UNKNOWN, FORM; a frame that
passes goes to its owning block, whose answer is put in the answer slot. That the direction of STORE_BLANK is among the link's FORM
tests, ahead of the sequencer's state, is the model's (log entry 34). -/
def Obligations.DispatchTestsTheOldestFrame : Prop :=
  ∀ (s : State) (f : Frame) (rest : List Frame),
    s.olu.phase = .running → s.olu.inHand = none → s.olu.frames = f :: rest →
      let t : State := { s with olu := { s.olu with frames := rest } }
      let form := Reply.refuse .form (if f.kind = 0x10 then 65535 else 0)
      (f.checkOk = false → exec .dispatch s = .next (t.answered f.kind f.tag f.target (.refuse .check 0))) ∧
      (f.checkOk = true → decodeOrder f.kind f.body = .error .unknown →
        exec .dispatch s = .next (t.answered f.kind f.tag f.target (.refuse .unknown 0))) ∧
      (f.checkOk = true → decodeOrder f.kind f.body = .error .form →
        exec .dispatch s = .next (t.answered f.kind f.tag f.target form)) ∧
      (∀ o, f.checkOk = true → decodeOrder f.kind f.body = .ok o → (o.formOk && o.targetOk f.target) = false →
        exec .dispatch s = .next (t.answered f.kind f.tag f.target form)) ∧
      (∀ o, f.checkOk = true → decodeOrder f.kind f.body = .ok o → (o.formOk && o.targetOk f.target) = true →
        let r := o.act f.tag f.target (t.inHand ⟨f.kind, f.tag, f.target⟩)
        exec .dispatch s = .next (r.1.answer r.2).settle)

/-- Sections 10.4 and 10.5: an order sent on a free link is acted on by its owning block in one step and answered; one that fails
the link's form or target test is refused FORM and changes nothing. It holds of every order. That an order arrives as one whole
frame, and that the direction of STORE_BLANK is among the link's FORM tests in every state, are the model's (log entries 7 and
34). -/
def Obligations.OrderOnFreeLinkIsActedOn : Prop :=
  ∀ (i : Instr) (tag target : Byte) (o : Order) (s : State), Sys2Proof.orderOf i = some (tag, target, o) → s.linkFree →
    ((o.formOk && o.targetOk target) = true →
      let r := o.act tag target (s.inHand ⟨o.kind, tag, target⟩)
      exec i s = .next (r.1.answer r.2).settle) ∧
    ((o.formOk && o.targetOk target) = false → o.body.length ≤ 1536 →
      exec i s = .next (s.answered o.kind tag target (.refuse .form (if o.kind = 0x10 then 65535 else 0))))

/-- Section 10.4 with log entry 7: an order command that meets another order in hand or waiting does what the bytes of its frame
do. -/
def Obligations.OrderCommandIsItsFrame : Prop :=
  ∀ (i : Instr) (tag target : Byte) (o : Order) (s : State), Sys2Proof.orderOf i = some (tag, target, o) →
    s.olu.phase = .running → s.olu.receiver = .waiting → s.olu.storesOccupied < 2 → o.body.length ≤ 1536 →
    s.olu.inHand ≠ none ∨ s.olu.frames ≠ [] →
      exec i s = exec (.frameReceived (orderBytes ⟨o.kind, tag, target⟩ o)) s

/-! ### Channel orders (chapter 4) -/

/-- Section 4.3: an accepted COPY appends all its units to the channel's buffer, with the order's tag; an IDLE channel takes the
eligibility test; the answer gives the free space left and the source unit index of the first unit. -/
def Obligations.CopyAppendsItsUnits : Prop :=
  ∀ (s : State) (tag : Byte) (c : Fin 4) (units : List RawUnit) (us : List CopyUnit),
    s.linkFree → 1 ≤ units.length → units.length ≤ 512 → decodeUnits 0 units = .ok us →
    (∀ why, s.ch[c].state ≠ .held why) → us.length ≤ 4096 - s.ch[c].buffer.length →
      let buffer := s.ch[c].buffer ++ us.map (fun u => ⟨u, tag⟩)
      exec (.copy tag (chByte c) units) s =
        .next (({ s with ch := setAt s.ch c { s.ch[c] with
            buffer := buffer, state := if s.ch[c].state = .idle then eligibility buffer else s.ch[c].state } } : State).answered
          0x10 tag (chByte c)
          (.accept (u16 (4096 - buffer.length) ++ u32 (s.ch[c].consumed + BitVec.ofNat 32 s.ch[c].buffer.length).toNat)))

/-- Section 4.3: a COPY whose channel, units, channel state or room fails the channel's tests, in that order, is refused with the
reason and detail of the first failing test and appends nothing. -/
def Obligations.CopyRefusedAppendsNothing : Prop :=
  ∀ (s : State) (tag target : Byte) (units : List RawUnit),
    s.linkFree → 1 ≤ units.length → units.length ≤ 512 →
      (4 ≤ target.toNat → exec (.copy tag target units) s = .next (s.answered 0x10 tag target (.refuse .range 0))) ∧
      (∀ i, target.toNat < 4 → decodeUnits 0 units = .error i →
        exec (.copy tag target units) s = .next (s.answered 0x10 tag target (.refuse .form i))) ∧
      (∀ (c : Fin 4) us why, target = chByte c → decodeUnits 0 units = .ok us → s.ch[c].state = .held why →
        exec (.copy tag target units) s = .next (s.answered 0x10 tag target (.refuse .state 0))) ∧
      (∀ (c : Fin 4) us, target = chByte c → decodeUnits 0 units = .ok us → (∀ why, s.ch[c].state ≠ .held why) →
        4096 - s.ch[c].buffer.length < us.length →
        exec (.copy tag target units) s =
          .next (s.answered 0x10 tag target (.refuse .full (4096 - s.ch[c].buffer.length))))

/-- Sections 1.3, 4.1 and 4.2: CHANNEL_SET writes its clamped fields, with the word spaces ordered, at once; or holds them pending
while the channel is COMPOSING, the raised word spaces among them (the model's: log entry 26); a malformed list is refused FORM
and writes nothing. A numeric field named alone is clamped into its range, a word space raises those above it, and the two face
numbers and the hyphen code are taken as given. A target of 4 or more is refused RANGE. -/
def Obligations.ChannelSetAppliesOrPends : Prop :=
  ∀ (s : State) (tag : Byte) (c : Fin 4) (fields : List FieldEntry), s.linkFree → fields.length ≤ 18 →
    let x := s.ch[c]
    let named := namedFields fields
    let names := clampedList (x.clampedFields named)
    (channelFieldsOk fields = false →
      exec (.channelSet tag (chByte c) fields) s = .next (s.answered 0x11 tag (chByte c) (.refuse .form 0))) ∧
    (channelFieldsOk fields = true → x.state ≠ .composing →
      exec (.channelSet tag (chByte c) fields) s =
        .next (({ s with ch := setAt s.ch c (x.apply (x.writes named)) } : State).answered 0x11 tag (chByte c)
          (.accept (u8 0 ++ names)))) ∧
    (channelFieldsOk fields = true → x.state = .composing →
      exec (.channelSet tag (chByte c) fields) s =
        .next (({ s with ch := setAt s.ch c { x with pendSet := gather x.pendSet (x.writes named) } } : State).answered
          0x11 tag (chByte c) (.accept (u8 1 ++ names)))) ∧
    (∀ v, fields = [⟨1, v⟩] → x.state ≠ .composing →
      ∃ t, exec (.channelSet tag (chByte c) fields) s = .next t ∧ t.ch[c].ctx.measure = clampNat 768 55296 v.toNat) ∧
    (∀ v : Word, SettingLaw s → x.state ≠ .composing →
      let m := min 2000 v.toNat
      let leaves (n : Byte) (y : Context) : Prop :=
        ∃ t, exec (.channelSet tag (chByte c) [⟨n, v⟩]) s = .next t ∧ t.ch[c].ctx = y
      leaves 2 { x.ctx with leading := min 18432 v.toNat } ∧
      leaves 3 { x.ctx with indent := min 55296 v.toNat } ∧
      leaves 5 { x.ctx with wsMin := m, wsOpt := max x.ctx.wsOpt m, wsMax := max x.ctx.wsMax m } ∧
      leaves 6 { x.ctx with wsOpt := max m x.ctx.wsMin, wsMax := max x.ctx.wsMax m } ∧
      leaves 7 { x.ctx with wsMax := max m x.ctx.wsOpt } ∧
      leaves 8 { x.ctx with letterLimit := min 200 v.toNat } ∧
      leaves 9 { x.ctx with elongLimit := m } ∧
      leaves 11 { x.ctx with face := v.toNat } ∧
      leaves 12 { x.ctx with size := clampNat 16 576 v.toNat } ∧
      leaves 13 { x.ctx with setw := clampNat 16 576 v.toNat } ∧
      leaves 14 { x.ctx with track := max (-200) (min 200 v.toInt) } ∧
      leaves 16 { x.ctx with fallback := v.toNat } ∧
      leaves 17 { x.ctx with hyphen := v.toNat }) ∧
    (∀ target : Byte, 4 ≤ target.toNat →
      exec (.channelSet tag target fields) s = .next (s.answered 0x11 tag target (.refuse .range 0)))

/-- Sections 4.2 and 4.5: COLUMN sets the column top, next baseline and line counter, or is held pending while the channel is
COMPOSING; RELEASE takes a HELD channel to the eligibility test, and is refused STATE in any other state. A target of 4 or more is
refused RANGE. -/
def Obligations.ColumnAndReleaseActOnTheChannel : Prop :=
  ∀ (s : State) (tag : Byte) (c : Fin 4), s.linkFree →
    let x := s.ch[c]
    (∀ top : BitVec 32, x.state ≠ .composing →
      exec (.column tag (chByte c) top) s =
        .next (({ s with ch := setAt s.ch c { x with
            top := min 4194303 top.toNat, next := min 4194303 top.toNat, lineCounter := 0 } } : State).answered
          0x12 tag (chByte c) (.accept (yesNo (decide (4194303 < top.toNat)))))) ∧
    (∀ top : BitVec 32, x.state = .composing →
      exec (.column tag (chByte c) top) s =
        .next (({ s with ch := setAt s.ch c { x with pendCol := some (min 4194303 top.toNat) } } : State).answered
          0x12 tag (chByte c) (.accept (yesNo (decide (4194303 < top.toNat)))))) ∧
    (∀ why, x.state = .held why →
      exec (.release tag (chByte c)) s =
        .next (({ s with ch := setAt s.ch c { x with state := eligibility x.buffer } } : State).answered
          0x14 tag (chByte c) (.accept []))) ∧
    ((∀ why, x.state ≠ .held why) →
      exec (.release tag (chByte c)) s = .next (s.answered 0x14 tag (chByte c) (.refuse .state 0))) ∧
    (∀ (target : Byte) (top : BitVec 32), 4 ≤ target.toNat →
      exec (.column tag target top) s = .next (s.answered 0x12 tag target (.refuse .range 0)) ∧
      exec (.release tag target) s = .next (s.answered 0x14 tag target (.refuse .range 0)))

/-- Section 4.5: CANCEL empties the channel's buffer, clears its carry and hold request, removes its QUEUED lines and no others, and
answers with the units discarded, the lines removed, whether a composition was marked for discard and whether a line is exposing.
The references of the lines, and of a composition that ends, are released and WITHDRAWING faces that lose their last one retire, in
composition order and order of first use (the model's: log entry 37); a channel in MOUNT_WAIT leaves its request's waiting set,
and a request left with none leaves the list unless it is loading or a MOUNT order's; a composition of the channel ends as
discarded, with the pending changes applied; a chosen line that is removed is marked so (the model's: log entry 18). Every other
channel, the film, the fetch scheduler, the sequencer, the strike assembler and the store stay as they were. A target of 4 or more
is refused RANGE. -/
def Obligations.CancelEmptiesTheChannel : Prop :=
  ∀ (s : State) (tag : Byte) (c : Fin 4), s.linkFree →
    (∀ target : Byte, 4 ≤ target.toNat →
      exec (.cancel tag target) s = .next (s.answered 0x13 tag target (.refuse .range 0))) ∧
    (let x := s.ch[c]
     let lines := s.ex.queued.filter (fun q => q.line.header.channel == c)
     let used := lines.flatMap (fun q => q.line.used) ++
       ((s.ce.comp.filter (fun y => y.channel == c)).map (fun y => y.used)).getD []
     let r := (if x.state = .mountWait then s.fdm.dropWaiter c else s.fdm).decRefs used
     ∃ t : State, exec (.cancel tag (chByte c)) s = .next (t.answered 0x13 tag (chByte c)
         (.accept (u16 x.buffer.length ++ u8 lines.length ++ yesNo (decide (x.state = .composing)) ++
           yesNo (s.ex.exposing.any (fun y => y.line.header.channel == c))))) ∧
       t.ch[c].buffer = [] ∧ t.ch[c].carry = none ∧ t.ch[c].holdReq = false ∧
       (∀ d : Fin 4, d ≠ c → t.ch[d] = s.ch[d]) ∧
       t.ex = { s.ex with
         queued := s.ex.queued.filter (fun q => q.line.header.channel != c),
         chosen := s.ex.chosen.map (fun y => { y with removed := y.removed || lines.any (fun q => q.slot == y.slot) }) } ∧
       t.fs = s.fs ∧ t.sq = s.sq ∧ t.sa = s.sa ∧ t.store = s.store ∧ t.time = s.time ∧
       ((∀ y, s.ce.comp = some y → y.channel ≠ c) →
         t.ce = s.ce ∧ t.ch[c] = { x with
           buffer := [], carry := none, holdReq := false,
           state := if x.state = .composing then .composing else .idle }) ∧
       (∀ y, s.ce.comp = some y → y.channel = c → t.ce = { s.ce with comp := none } ∧ t.ch[c] = { x with
         buffer := [], carry := none, holdReq := false, state := .idle,
         ctx := x.ctx.writeAll x.pendSet, pendSet := [], pendCol := none,
         runDir := match x.pendSet.find? (fun w => w.1 == .paraDir) with
           | some w => dirOf w.2.toNat
           | none => x.runDir
         top := x.pendCol.getD x.top, next := x.pendCol.getD x.next,
         lineCounter := if x.pendCol.isSome then 0 else x.lineCounter }) ∧
       t.fdm = r.1 ∧ t.olu = r.2.foldl (fun o n => o.post n) s.olu ∧
       (∀ p : Fin 8, t.fdm.pos[p].count = s.fdm.pos[p].count - used.count p ∧ (p ∉ used → t.fdm.pos[p] = s.fdm.pos[p])) ∧
       (∀ n ∈ r.2, ∃ f p, n = Notice.faceRetired f p) ∧
       (∀ p ∈ used, ∀ f, s.fdm.pos[p].count ≤ used.count p → s.fdm.pos[p].state.face = some f →
         s.fdm.dir[f].state = .withdrawing → (∀ p' : Fin 8, s.fdm.pos[p'].state.face = some f → p' = p) →
         t.fdm.pos[p] = {} ∧ t.fdm.dir[f] = {} ∧ Notice.faceRetired f p ∈ r.2) ∧
       t.fdm.load = s.fdm.load ∧ t.fdm.recency = s.fdm.recency ∧ t.fdm.lock = s.fdm.lock ∧
       (x.state ≠ .mountWait → t.fdm.requests = s.fdm.requests) ∧
       (x.state = .mountWait → t.fdm.requests =
         (s.fdm.requests.filter (fun q => decide (c ∉ q.waiters) || q.byOrder ||
           s.fdm.load.any (fun l => l.face == q.face) || q.waiters.any (fun d => d != c))).map
           (fun q => { q with waiters := q.waiters.filter (fun d => d != c) })))

/-! ### Inquiries -/

/-- Sections 2.1, 4.5, 7.7 and 8.7: the four query orders answer with their block's record and change nothing; FACE_QUERY of 128 to
254, and CHANNEL_QUERY of a target of 4 or more, are refused RANGE. The layouts of the reports are the model's where chapter 11
leaves them open (log entries 19, 42, 43, 45 and 54), and so is that STORE_QUERY gives the record of section 7.1 and nothing more of
an ended operation (log entry 52) and that a value that is set or clear is 1 for set (log entry 57). -/
def Obligations.QueriesChangeNothing : Prop :=
  ∀ (s : State) (tag : Byte), s.linkFree →
    (∀ c : Fin 4, exec (.channelQuery tag (chByte c)) s =
      .next (s.answered 0x15 tag (chByte c) (.accept (s.ch[c].report ++ s.lineCounts c)))) ∧
    (∀ target : Byte, 4 ≤ target.toNat →
      exec (.channelQuery tag target) s = .next (s.answered 0x15 tag target (.refuse .range 0))) ∧
    (∀ f : Fin 128, exec (.faceQuery tag 0 (BitVec.ofNat 8 f.val)) s =
      .next (s.answered 0x23 tag 0 (.accept (s.fdm.faceReport f)))) ∧
    exec (.faceQuery tag 0 255) s = .next (s.answered 0x23 tag 0 (.accept s.fdm.tableReport)) ∧
    (∀ n : Byte, 128 ≤ n.toNat → n.toNat ≤ 254 →
      exec (.faceQuery tag 0 n) s = .next (s.answered 0x23 tag 0 (.refuse .range 0))) ∧
    exec (.storeQuery tag 0) s = .next (s.answered 0x38 tag 0 (.accept s.sq.report)) ∧
    exec (.exposeQuery tag 0) s =
      .next (s.answered 0x44 tag 0 (.accept (s.ex.report ++ sixteens.flatMap s.slotReport ++
        opt8 (s.ex.queued.head?.map (·.slot.val)) ++
        opt8 (s.ex.exposing.map (fun _ => if s.sa.assembly.isNone then 1 else 0)))))

/-- Section 10.6: STATUS changes nothing and answers with the reset record, the queue depth and lost-notice count as they stand when
it is taken, the EX and SQ states, the four channel states and the map lock, whose coding, 1 for set, is the model's (log entry 57).
-/
def Obligations.StatusReportsAndChangesNothing : Prop :=
  ∀ (s : State) (tag : Byte), s.linkFree →
    exec (.status tag 0) s =
      .next (s.answered 0x50 tag 0 (.accept
        (s.olu.record.bytes ++ u8 s.olu.notices.length ++ u8 s.olu.lost ++ u8 s.ex.state.code ++ u8 s.sq.state.code ++
          u8 s.ch[0].state.code ++ u8 s.ch[1].state.code ++ u8 s.ch[2].state.code ++ u8 s.ch[3].state.code ++
          yesNo s.fdm.lock)))

/-! ### Faces and mounting (chapter 2) -/

/-- Section 2.1: FACE_DEFINE makes its tests in order, MAP_LOCKED, RANGE, STATE, OVERLAP; the first that fails refuses it and
changes nothing; when all pass the entry alone becomes DEFINED with the base and size. -/
def Obligations.FaceDefineTestsThenDefines : Prop :=
  ∀ (s : State) (tag face : Byte) (base size : Word), s.linkFree →
    let refused (r : Reason) := exec (.faceDefine tag 0 face base size) s = .next (s.answered 0x20 tag 0 (.refuse r 0))
    let inRange := face.toNat < 128 ∧ (∃ k, k ≤ 10 ∧ size.toNat = 2 ^ k) ∧ base.toNat < 4096 ∧ base.toNat % size.toNat = 0
    (s.fdm.lock = true → refused .mapLocked) ∧
    (s.fdm.lock = false → ¬ inRange → refused .range) ∧
    (∀ f : Fin 128, face = BitVec.ofNat 8 f.val → s.fdm.lock = false → inRange →
      (s.fdm.dir[f].state ≠ .undefined → refused .state) ∧
      (s.fdm.dir[f].state = .undefined →
        (∃ g : Fin 128, s.fdm.dir[g].state ≠ .undefined ∧
          overlaps base.toNat size.toNat s.fdm.dir[g].base s.fdm.dir[g].size = true) → refused .overlap) ∧
      (s.fdm.dir[f].state = .undefined →
        (∀ g : Fin 128, s.fdm.dir[g].state ≠ .undefined →
          overlaps base.toNat size.toNat s.fdm.dir[g].base s.fdm.dir[g].size = false) →
        exec (.faceDefine tag 0 face base size) s =
          .next (({ s with fdm := { s.fdm with
              dir := setAt s.fdm.dir f ⟨.defined, base.toNat, size.toNat⟩ } } : State).answered 0x20 tag 0 (.accept []))))

/-- Section 2.1: FACE_WITHDRAW of a DEFINED face whose position is LOADING, or has a nonzero count, makes the entry WITHDRAWING;
of any other DEFINED face it empties the position the face holds, if any, and makes the entry UNDEFINED at once; and a mount
request of such a face leaves the list, its waiting channels leaving MOUNT_WAIT by the eligibility test. With the map lock clear,
a face number of 128 or more is refused RANGE, and a face that is not DEFINED STATE. The codes of the two results are the model's
(log entry 19). -/
def Obligations.FaceWithdrawDefersOrRetires : Prop :=
  ∀ (s : State) (tag : Byte), s.linkFree → s.fdm.lock = false →
    (∀ face : Byte, 128 ≤ face.toNat →
      exec (.faceWithdraw tag 0 face) s = .next (s.answered 0x21 tag 0 (.refuse .range 0))) ∧
    (∀ f : Fin 128, s.fdm.dir[f].state ≠ .defined →
      exec (.faceWithdraw tag 0 (BitVec.ofNat 8 f.val)) s = .next (s.answered 0x21 tag 0 (.refuse .state 0))) ∧
    (∀ f : Fin 128, s.fdm.dir[f].state = .defined →
      (∀ p, s.fdm.posOf f = some p → s.fdm.pos[p].state = .loading f ∨ s.fdm.pos[p].count ≠ 0 →
        exec (.faceWithdraw tag 0 (BitVec.ofNat 8 f.val)) s =
          .next (({ s with fdm := { s.fdm with
              dir := setAt s.fdm.dir f { s.fdm.dir[f] with state := .withdrawing } } } : State).answered
            0x21 tag 0 (.accept [1, 255]))) ∧
      (∀ p, s.fdm.posOf f = some p → s.fdm.pos[p].state ≠ .loading f → s.fdm.pos[p].count = 0 →
        (∀ q ∈ s.fdm.requests, q.face ≠ f) →
        exec (.faceWithdraw tag 0 (BitVec.ofNat 8 f.val)) s =
          .next (({ s with fdm := { s.fdm with
              pos := setAt s.fdm.pos p {}, dir := setAt s.fdm.dir f {} } } : State).answered 0x21 tag 0 (.accept [0, 255]))) ∧
      (s.fdm.posOf f = none → (∀ q ∈ s.fdm.requests, q.face ≠ f) →
        exec (.faceWithdraw tag 0 (BitVec.ofNat 8 f.val)) s =
          .next (({ s with fdm := { s.fdm with dir := setAt s.fdm.dir f {} } } : State).answered 0x21 tag 0 (.accept [0, 255]))) ∧
      (∀ q, (∀ p, s.fdm.posOf f = some p → s.fdm.pos[p].state ≠ .loading f ∧ s.fdm.pos[p].count = 0) →
        s.fdm.requests.find? (fun r => r.face == f) = some q →
        ∃ ch : Vector Channel 4,
          exec (.faceWithdraw tag 0 (BitVec.ofNat 8 f.val)) s =
            .next (({ s with
              ch := ch,
              fdm := { s.fdm with
                pos := match s.fdm.posOf f with
                  | some p => setAt s.fdm.pos p {}
                  | none => s.fdm.pos
                dir := setAt s.fdm.dir f {}, requests := s.fdm.requests.filter (fun r => r.face != f) } } : State).answered
              0x21 tag 0 (.accept [0, BitVec.ofNat 8 f.val])) ∧
          ∀ c : Fin 4, ch[c] = if c ∈ q.waiters ∧ s.ch[c].state = .mountWait then
            { s.ch[c] with state := eligibility s.ch[c].buffer } else s.ch[c]))

/-- Sections 2.1 and 7.6: MAP_LOCK sets the lock and answers with its state before, coded 1 for set (the model's: log entry 57), and
changes nothing else; while the lock is set FACE_DEFINE, FACE_WITHDRAW and STORE_WINDOW are refused MAP_LOCKED whatever they name,
and change nothing. -/
def Obligations.MapLockSetsAndProtects : Prop :=
  ∀ (s : State) (tag : Byte), s.linkFree →
    exec (.mapLock tag 0) s =
      .next (({ s with fdm := { s.fdm with lock := true } } : State).answered 0x22 tag 0 (.accept (yesNo s.fdm.lock))) ∧
    (s.fdm.lock = true → ∀ (face first last : Byte) (base size : Word),
      exec (.faceDefine tag 0 face base size) s = .next (s.answered 0x20 tag 0 (.refuse .mapLocked 0)) ∧
      exec (.faceWithdraw tag 0 face) s = .next (s.answered 0x21 tag 0 (.refuse .mapLocked 0)) ∧
      exec (.storeWindow tag 0 first last) s = .next (s.answered 0x37 tag 0 (.refuse .mapLocked 0)))

/-- Section 2.4: MOUNT of a DEFINED face: a MOUNTED face is answered with its position; a face with a request in the list has that
request marked as joined; otherwise, when no order's request waits, the face is FAILED or a position would qualify, a request
joins the tail; and BUSY otherwise. A face number of 128 or more is refused RANGE, and a face that is not DEFINED STATE. The codes
of the results are the model's (log entry 19). -/
def Obligations.MountAnswersByTheFaceState : Prop :=
  ∀ (s : State) (tag : Byte), s.linkFree →
    (∀ face : Byte, 128 ≤ face.toNat →
      exec (.mount tag 0 face) s = .next (s.answered 0x24 tag 0 (.refuse .range 0))) ∧
    (∀ f : Fin 128, s.fdm.dir[f].state ≠ .defined →
      exec (.mount tag 0 (BitVec.ofNat 8 f.val)) s = .next (s.answered 0x24 tag 0 (.refuse .state 0))) ∧
    (∀ f : Fin 128, s.fdm.dir[f].state = .defined →
      let c := Instr.mount tag 0 (BitVec.ofNat 8 f.val)
      (∀ p, s.fdm.posOf f = some p → s.fdm.pos[p].state = .mounted f →
        exec c s = .next (s.answered 0x24 tag 0 (.accept (u8 0 ++ u8 p.val)))) ∧
      (s.fdm.mountedAt f = none →
        ((∃ q ∈ s.fdm.requests, q.face = f) →
          exec c s = .next (({ s with fdm := { s.fdm with
              requests := s.fdm.requests.map (fun q => if q.face = f then { q with byOrder := true } else q) } } : State).answered
            0x24 tag 0 (.accept [1]))) ∧
        ((∀ q ∈ s.fdm.requests, q.face ≠ f) → s.fdm.orderWaiting = false →
          s.fdm.hasFailed f = true ∨ s.fdm.choose f ≠ none →
          exec c s = .next (({ s with fdm := { s.fdm with requests := s.fdm.requests ++ [⟨f, [], true⟩] } } : State).answered
            0x24 tag 0 (.accept [2]))) ∧
        ((∀ q ∈ s.fdm.requests, q.face ≠ f) →
          s.fdm.orderWaiting = true ∨ (s.fdm.hasFailed f = false ∧ s.fdm.choose f = none) →
          exec c s = .next (s.answered 0x24 tag 0 (.refuse .busy 0)))))

/-- Sections 2.3 and 2.4: with no load in progress, a load begins for the head request in the first position that applies: the one
that its face holds FAILED, the lowest-numbered EMPTY one, the least recently used FAILED one, the least recently used MOUNTED one
with count 0; where none applies the request waits, and while a load runs no other begins. The position becomes LOADING with count 0
and the base page of the region is requested; another face that held the position, FAILED as well as MOUNTED (the model's: log
entry 36), is the evicted one; and a position that is LOADING, or MOUNTED with a nonzero count, is never chosen. -/
def Obligations.LoadBeginsInTheChosenPosition : Prop :=
  ∀ (s : State) (q : MountReq) (rest : List MountReq), s.fdm.requests = q :: rest →
    let d := s.fdm
    let begins (p : Fin 8) : Prop :=
      exec .mountLoadBegin s =
        .next ({ s with
          fdm := { d with
            pos := setAt d.pos p { state := .loading q.face, count := 0, memory := [] },
            load := some { pos := p, face := q.face, length := none, issued := 1,
                           evicted := if d.pos[p].state.face = some q.face then none else d.pos[p].state.face } },
          fs := s.fs.request { requester := .mount, page := d.dir[q.face].base, offset := 0, length := 4096 } } : State).settle ∧
      (∀ f, d.pos[p].state ≠ .loading f) ∧ (∀ f, d.pos[p].state = .mounted f → d.pos[p].count = 0)
    let own (p : Fin 8) : Prop := ∃ why, d.pos[p].state = .failed q.face why
    let empty (p : Fin 8) : Prop := d.pos[p].state = .empty
    let failed (p : Fin 8) : Prop := ∃ f why, d.pos[p].state = .failed f why
    let unused (p : Fin 8) : Prop := (∃ f, d.pos[p].state = .mounted f) ∧ d.pos[p].count = 0
    let lowest (is : Fin 8 → Prop) (p : Fin 8) : Prop := is p ∧ ∀ x : Fin 8, x < p → ¬ is x
    let oldest (is : Fin 8 → Prop) (p : Fin 8) : Prop :=
      is p ∧ ∃ older newer, d.recency = older ++ p :: newer ∧ ∀ x ∈ older, ¬ is x
    (d.load = none →
      (∀ p, lowest own p → begins p) ∧
      ((∀ x, ¬ own x) → ∀ p, lowest empty p → begins p) ∧
      ((∀ x, ¬ own x ∧ ¬ empty x) → ∀ p, oldest failed p → begins p) ∧
      ((∀ x, ¬ own x ∧ ¬ empty x) → (∀ x ∈ d.recency, ¬ failed x) → ∀ p, oldest unused p → begins p) ∧
      ((∀ x, ¬ own x ∧ ¬ empty x) → (∀ x ∈ d.recency, ¬ failed x ∧ ¬ unused x) → exec .mountLoadBegin s = .next s.settle) ∧
      (∀ p, d.choose q.face = some p → begins p)) ∧
    (d.load ≠ none → exec .mountLoadBegin s = .next s.settle)

/-! ### The fetch scheduler (chapter 6) -/

/-- Section 6.7: FETCH_SET of a well-formed list sets the values it names, clamped to 15, leaves everything else, and answers with
the clamped fields, the values in force and the scheduler's report; a malformed list is refused FORM and writes nothing. The
layout of the answer is the model's (log entry 19). -/
def Obligations.FetchSetSetsTheScheduler : Prop :=
  ∀ (s : State) (tag : Byte) (fields : List FieldEntry), s.linkFree → fields.length ≤ 2 →
    let b := (fieldValue fields 1).getD s.fs.bypassLimit
    let h := (fieldValue fields 2).getD s.fs.hold
    let f : Fs := { s.fs with bypassLimit := min 15 b, hold := min 15 h }
    (fieldsOk 2 fields = true →
      exec (.fetchSet tag 0 fields) s =
        .next (({ s with fs := f } : State).answered 0x28 tag 0
          (.accept (clampedList ((if 15 < b then [1] else []) ++ (if 15 < h then [2] else [])) ++ u16 (min 15 b) ++
            u16 (min 15 h) ++ f.report)))) ∧
    (fieldsOk 2 fields = false →
      exec (.fetchSet tag 0 fields) s = .next (s.answered 0x28 tag 0 (.refuse .form 0)))

/-- Sections 6.2 and 6.5: a choice with the data path free. When the oldest request's count has reached the limit it is served, or,
its bank BUSY, nothing is; otherwise the oldest page hit is served, or failing that the oldest request on a bank that is not BUSY,
and an oldest request passed over has its count raised by 1. Where nothing is served, a running erase is suspended when its mode and
limit allow (section 7.4), and nothing else changes. -/
def Obligations.FetchChoiceServesByAgeAndHits : Prop :=
  ∀ (s : State) (o : FetchReq) (young : List FetchReq), s.fs.path = .free → s.fs.queue = o :: young →
    let served (r : FetchReq) (queue : List FetchReq) : Prop :=
      exec .fetchChoice s = .next ({ s with fs := { s.fs with
        queue := queue, path := if s.fs.isHit r then .moving r true else .opening r true,
        banks := setAt s.fs.banks (bankOf r.page) (.opened (rowOf r.page) none) } } : State).settle
    let waits : Prop :=
      exec .fetchChoice s = .next ({ s with sq :=
        if s.sq.state = .erasing ∧ s.sq.suspendAwaited = false ∧ s.sq.mode = .fetchFirst ∧ s.sq.suspendCount ≠ s.sq.eraseLimit then
          { s.sq with suspendCount := s.sq.suspendCount + 1, suspendAwaited := true }
        else s.sq } : State).settle
    let passed : List FetchReq → List FetchReq
      | [] => []
      | x :: xs => { x with bypass := x.bypass + 1 } :: xs
    (s.fs.bypassLimit ≤ o.bypass → s.fs.isBusy o = false → served o young) ∧
    (s.fs.bypassLimit ≤ o.bypass → s.fs.isBusy o = true → waits) ∧
    (o.bypass < s.fs.bypassLimit →
      (∀ older r later, o :: young = older ++ r :: later → (∀ x ∈ older, s.fs.isHit x = false) → s.fs.isHit r = true →
        served r (passed older ++ later)) ∧
      ((∀ x ∈ o :: young, s.fs.isHit x = false) → ∀ older r later, o :: young = older ++ r :: later →
        (∀ x ∈ older, s.fs.isBusy x = true) → s.fs.isBusy r = false → served r (passed older ++ later)) ∧
      ((∀ x ∈ o :: young, s.fs.isBusy x = true) → waits))

/-- Sections 6.2, 6.4 and 6.6: a row opened for the chosen request begins its transfer; a transfer of bytes that exist completes,
frees the data path and changes no byte of the store; and the data then serves its requester. At the completion a BUSY bank stays
BUSY, a hold interval of 0 closes the row, and otherwise the bank's hold begins; an erase or a claimed line that waited is sent;
and a suspended erase resumes when no fetch is left, before or after a request that the delivery makes (`State.resumes`, free: log
entry 22). A read of the link posts STORE_DATA with its tag, place and bytes; a withdrawn request's bytes go nowhere. For the
sequencer (chapter 7), the pre-program read of a line fails the line, lock pending ending with the session (the model's: log entry
39), or claims its bank before the next choice (log entry 47) and sends its program; and a page of a blank check ends the check,
its result kept by its STORE_DONE alone (the model's: log entry 52), or requests the next page, which the check position names
(log entry 48). In every state of the sequencer, for a master (chapter 9), see `State.SendsNext`: it fills its buffer, or marks
the line DAMAGED and is omitted (passed over when the lane is free: log entry 55) or replaced; and for a page of a metric section
(chapter 2), the load goes on with its next pages, at most four outstanding, or ends MOUNTED or FAILED, or retires. -/
def Obligations.TransferDeliversTheBytes : Prop :=
  ∀ (s : State) (r : FetchReq) (wanted : Bool),
    (s.fs.path = .opening r wanted →
      exec .rowOpenDone s = .next ({ s with fs := { s.fs with path := .moving r wanted } } : State).settle) ∧
    (s.fs.path = .moving r wanted → r.page < 4096 → r.offset + r.length ≤ 4096 →
      let data := readBytes s.store (4096 * r.page + r.offset) r.length
      let b := bankOf r.page
      let f : Fs := if s.fs.banks[b] = .busy then { s.fs with path := .free }
        else if s.fs.hold = 0 then
          { s.fs with path := .free, banks := setAt s.fs.banks b .closed, closing := setAt s.fs.closing b true }
        else { s.fs with path := .free, banks := setAt s.fs.banks b (.opened (rowOf r.page) (some (s.time + 4 * s.fs.hold))) }
      let q' : Sq := if s.sq.state = .erasing then { s.sq with eraseSent := true }
        else if s.sq.state = .programming ∧ s.sq.step = .claimed then { s.sq with step := .sent } else s.sq
      let finishes (v : State) : Prop := ∃ t, exec .transferComplete s = .next t.settle ∧ State.resumes f.isIdle v t
      (∃ t, exec .transferComplete s = .next t ∧ t.fs.path = .free ∧ t.store = s.store ∧ t.time = s.time ∧
        (s.sq.state = .erasing → t.sq.eraseSent = true) ∧
        (s.sq.state = .programming → s.sq.step = .claimed → r.requester ≠ .sequencer ∨ wanted = false → t.sq.step = .sent)) ∧
      (r.requester = .link ∨ wanted = false →
        let resumes := s.sq.state = .eraseSuspended ∧ f.isIdle = true
        let u : State := { s with
          fs := if resumes then { f with banks := Vector.replicate 8 .busy } else f,
          sq := if resumes then { s.sq with state := .erasing } else q' }
        exec .transferComplete s = .next (if wanted then
          State.post (.storeData (BitVec.ofNat 8 r.ref) r.page r.offset data) u else u).settle) ∧
      (∀ l rest, r.requester = .sequencer → wanted = true → s.sq.state = .programming → s.sq.step = .read →
        s.sq.buffer = l :: rest →
        let blank := ∀ b ∈ data, b = 255
        let fails (k : ErrorKinds) : Prop :=
          let gone := min 65535 (s.sq.discarded + rest.length)
          exec .transferComplete s = .next (State.post
            (.storeDone (.program s.sq.programmed gone (some (l.page, l.offset))) .locked k)
            { s with fs := f, sq := { s.sq with
              state := .locked, kinds := k, buffer := [], failed := some (l.page, l.offset), discarded := gone,
              lockPending := false } }).settle
        (¬ blank → fails { s.sq.kinds with programFail := true }) ∧
        (blank → s.sq.windowed (l.page / 64) = true → fails { s.sq.kinds with protect := true }) ∧
        (blank → s.sq.windowed (l.page / 64) = false → s.fdm.protects l.page 1 = true →
          fails { s.sq.kinds with inUse := true }) ∧
        (blank → s.sq.windowed (l.page / 64) = false → s.fdm.protects l.page 1 = false →
          exec .transferComplete s = .next ({ s with
            fs := { f with banks := setAt f.banks (bankOf l.page) .busy }, sq := { s.sq with step := .sent } } : State).settle)) ∧
      (∀ k, r.requester = .sequencer → wanted = true → s.sq.state = .checking → s.sq.check = some k →
        let ends (found : Option (Nat × Nat × Byte)) : Prop :=
          exec .transferComplete s = .next (State.post (.storeDone (.blank found) .done s.sq.kinds)
            { s with fs := f, sq := { s.sq with state := .idle, check := none } }).settle
        (∀ before v after, data = before ++ v :: after → v ≠ 255 →
          (∀ b ∈ (if k.down then after else before), b = 255) → ends (some (k.next, before.length, v))) ∧
        ((∀ b ∈ data, b = 255) → k.next = (if k.down then k.first else k.last) → ends none) ∧
        ((∀ b ∈ data, b = 255) → k.next ≠ (if k.down then k.first else k.last) →
          let n := if k.down then k.next - 1 else k.next + 1
          exec .transferComplete s = .next ({ s with
            sq := { s.sq with check := some { k with next := n } },
            fs := f.request { requester := .sequencer, page := n, offset := 0, length := 4096 } } : State).settle)) ∧
      (∀ w i again q, r.requester = .strike → wanted = true → s.sa.assembly = some w →
        s.sa.buffers[Fin.ofNat 8 r.ref] = .fetching i again → w.list[i]? = some q →
        let b : Fin 8 := Fin.ofNat 8 r.ref
        let missing := (s.fdm.pos[q.pos].metrics).missing
        let damaged := s.ex.markLine (fun m => { m with damaged := true })
        (masterPasses data = true →
          ∃ v, finishes v ∧ State.SendsNext { s with
            fs := f, sq := q', sa := { s.sa with buffers := setAt s.sa.buffers b (.filled i data false) } } v) ∧
        (masterPasses data = false → again = true ∨ q.extend = true ∨ q.glyph = missing →
          ∃ v, finishes v ∧ State.SendsNext { s with
            fs := f, sq := q', ex := damaged, sa := { s.sa with buffers := setAt s.sa.buffers b (.filled i data true) } } v) ∧
        (masterPasses data = false → again = false → q.extend = false → q.glyph ≠ missing →
          w.owed = [] → w.list.length ≤ w.fetchPoint → s.fs.holdsFor .strike = false →
          finishes { s with
            sq := q', ex := damaged, sa := { s.sa with buffers := setAt s.sa.buffers b (.fetching i true) },
            fs := f.request (masterFetch s.fdm q.pos missing b) })) ∧
      (∀ l, r.requester = .mount → wanted = true → s.fdm.load = some l →
        let size := s.fdm.dir[l.face].size
        let m : MountPos := { s.fdm.pos[l.pos] with memory := placePage r.ref data s.fdm.pos[l.pos].memory }
        let goesOn (len : Nat) : Prop := ∃ (n : Nat) (fetches : Fs), l.issued ≤ n ∧
          fetches = (List.range' l.issued (n - l.issued)).foldl (fun x k =>
            x.request { requester := .mount, page := s.fdm.dir[l.face].base + k, offset := 0,
                        length := if k + 1 = pagesOf len then len - 4096 * k else 4096, ref := k }) f ∧
          (n ≠ l.issued → n ≤ pagesOf len ∧ fetches.outstanding .mount ≤ 4) ∧
          (pagesOf len ≤ n ∨ 4 ≤ fetches.outstanding .mount ∨ fetches.holdsFor .mount = true) ∧
          finishes { s with fs := fetches, sq := q', fdm := { s.fdm with
            pos := setAt s.fdm.pos l.pos m, load := some { l with length := some len, issued := n } } }
        let ends (fail : Option MountCause) : Prop :=
          let notice : Notice := match fail with
            | none => .mountDone l.face l.pos m.metrics.e m.metrics.glyphs.length l.evicted
            | some why => .mountFailed l.face l.pos why l.evicted
          let waiters := ((s.fdm.requests.find? (fun q => q.face == l.face)).map (·.waiters)).getD []
          ∃ v, finishes v ∧ v.fs = f ∧ v.sq = q' ∧
            v.fdm.load = none ∧ v.fdm.requests = s.fdm.requests.filter (fun q => q.face != l.face) ∧
            v.fdm.recency = s.fdm.recency.filter (fun p => decide (p ≠ l.pos)) ++ [l.pos] ∧ v.fdm.lock = s.fdm.lock ∧
            (s.fdm.dir[l.face].state ≠ .withdrawing →
              v.fdm.pos = setAt s.fdm.pos l.pos (match fail with
                | none => { m with state := .mounted l.face, count := 0 }
                | some why => { state := .failed l.face why }) ∧
              v.fdm.dir = s.fdm.dir ∧ v.olu = s.olu.post notice) ∧
            (s.fdm.dir[l.face].state = .withdrawing →
              v.fdm.pos = setAt s.fdm.pos l.pos {} ∧ v.fdm.dir = setAt s.fdm.dir l.face {} ∧
              v.olu = (s.olu.post notice).post (.faceRetired l.face l.pos)) ∧
            (∀ c : Fin 4, v.ch[c] = if c ∈ waiters ∧ s.ch[c].state = .mountWait then
              { s.ch[c] with state := eligibility s.ch[c].buffer } else s.ch[c]) ∧
            v.ce = s.ce ∧ v.ex = s.ex ∧ v.sa = s.sa ∧ v.store = s.store ∧ v.time = s.time
        (l.length = none → ∀ why, headerTest data size = some why → ends (some why)) ∧
        (l.length = none → headerTest data size = none →
          (at32 data 24 ≤ 4096 → ends (bodyTest m.sectionBytes size)) ∧ (4096 < at32 data 24 → goesOn (at32 data 24))) ∧
        (∀ len, l.length = some len →
          (m.memory.length = pagesOf len → ends (bodyTest m.sectionBytes size)) ∧
          (m.memory.length ≠ pagesOf len → goesOn len))))

/-- Sections 6.2 and 6.4: a hold deadline's arrival closes its bank, a close is sent to the store, and the timebase has reached the
deadline (log entry 11); a close's report is noted; and the request held first enters the queue as its youngest with a count of 0
when there is a place, which answers the STORE_READ of a LINK request. -/
def Obligations.BankAndEntryEvents : Prop :=
  (∀ (s : State) (b : Fin 8) (row d : Nat), s.fs.banks[b] = .opened row (some d) →
    exec (.holdDeadlineExpiry b) s =
      .next ({ s with time := max s.time d, fs := { s.fs with
        banks := setAt s.fs.banks b .closed, closing := setAt s.fs.closing b true } } : State).settle) ∧
  (∀ (s : State) (b : Fin 8),
    exec (.bankCloseDone b) s = .next ({ s with fs := { s.fs with closing := setAt s.fs.closing b false } } : State).settle) ∧
  (∀ (s : State) (r : FetchReq) (rest : List FetchReq), s.fs.held = r :: rest → s.fs.queue.length < 32 →
    let t : State := { s with fs := { s.fs with queue := s.fs.queue ++ [{ r with bypass := 0 }], held := rest } }
    (r.requester = .sequencer → exec .fetchRequestEntry s = .next t.settle) ∧
    (r.requester = .link → exec .fetchRequestEntry s = .next (t.answer (.accept [])).settle) ∧
    (∃ u more, exec .fetchRequestEntry s = .next u ∧ u.fs.queue = t.fs.queue ++ more))

/-! ### The store sequencer (chapter 7) -/

/-- Sections 7.2 and 7.3: STORE_WRITE in each state of the sequencer. In IDLE, a line whose page and offset are in range,
unprotected and in no face's region opens a session and its pre-program read is requested; a failing test refuses it with its kind
and locks. In PROGRAMMING without a lock pending, such a line joins a buffer of one line and is refused FULL by a buffer of two; a
failing test sets lock pending, adds its kind and discards the line behind. -/
def Obligations.StoreWriteByState : Prop :=
  ∀ (s : State) (tag : Byte) (page offset : Word) (data : Bytes), s.linkFree → data.length = 256 →
    let c := Instr.storeWrite tag 0 page offset data
    let line : ProgLine := ⟨page.toNat, offset.toNat, data⟩
    let inRange := page.toNat < 4096 ∧ offset.toNat < 4096 ∧ offset.toNat % 256 = 0
    let passes := inRange ∧ s.sq.windowed (page.toNat / 64) = false ∧ s.fdm.protects page.toNat 1 = false
    let refused (r : Reason) := exec c s = .next (s.answered 0x30 tag 0 (.refuse r 0))
    let locked (k : ErrorKinds) (r : Reason) :=
      exec c s = .next (({ s with sq := { s.sq with state := .locked, kinds := k } } : State).answered 0x30 tag 0 (.refuse r 0))
    (s.sq.state = .locked → refused .storeLocked) ∧
    (s.sq.state = .erasing ∨ s.sq.state = .eraseSuspended ∨ s.sq.state = .checking → refused .busy) ∧
    (s.sq.state = .idle →
      (passes → exec c s = .next (({ s with
        sq := { s.sq with
          state := .programming, buffer := [line], step := .read, programmed := 0, discarded := 0, failed := none,
          latest := some 0x30, previous := s.sq.latest },
        fs := s.fs.request { requester := .sequencer, page := page.toNat, offset := offset.toNat, length := 256 } } : State).answered
          0x30 tag 0 (.accept [1]))) ∧
      (¬ inRange → locked { s.sq.kinds with range := true } .range) ∧
      (inRange → s.sq.windowed (page.toNat / 64) = true → locked { s.sq.kinds with protect := true } .protect) ∧
      (inRange → s.sq.windowed (page.toNat / 64) = false → s.fdm.protects page.toNat 1 = true →
        locked { s.sq.kinds with inUse := true } .inUse)) ∧
    (s.sq.state = .programming →
      (s.sq.lockPending = true → refused .storeLocked) ∧
      (s.sq.lockPending = false → passes → ∀ first, s.sq.buffer = [first] →
        exec c s = .next (({ s with sq := { s.sq with
          buffer := [first, line], latest := some 0x30, previous := s.sq.latest } } : State).answered 0x30 tag 0 (.accept [2]))) ∧
      (s.sq.lockPending = false → passes → 2 ≤ s.sq.buffer.length → refused .full) ∧
      (s.sq.lockPending = false → ¬ passes → ∃ e, writeTest s.sq s.fdm page.toNat offset.toNat = some e ∧
        exec c s = .next (({ s with sq := { s.sq with
          kinds := s.sq.kinds.add e, lockPending := true, buffer := s.sq.buffer.take 1,
          discarded := min 65535 (s.sq.discarded + (s.sq.buffer.length - 1)) } } : State).answered
            0x30 tag 0 (.refuse e.reason 0))))

/-- Section 7.3: at the report of a program line that has been sent, its 256 bytes stand in the store and every other byte of the
store is as it was; the line leaves the buffer, the programmed count rises, its bank is released; the line behind begins its read,
or the session ends IDLE, or LOCKED when an error kind is recorded, its STORE_DONE posted with the session's counts. No other
block changes. -/
def Obligations.ProgramLineDoneWritesTheLine : Prop :=
  ∀ (s : State) (l : ProgLine) (rest : List ProgLine),
    s.sq.state = .programming → s.sq.step = .sent → s.sq.buffer = l :: rest →
      ∃ t, exec .programLineDone s = .next t ∧
        (∀ i, i < 256 → readByte t.store (4096 * l.page + l.offset + i) = l.data.getD i 255) ∧
        sameOutside (4096 * l.page + l.offset) 256 s t ∧
        t.sq.buffer = rest ∧ t.sq.programmed = min 65535 (s.sq.programmed + 1) ∧ t.sq.kinds = s.sq.kinds ∧
        t.fs.banks[bankOf l.page] ≠ .busy ∧
        t.sq.discarded = s.sq.discarded ∧ t.sq.failed = s.sq.failed ∧
        (rest = [] → (t.sq.state = if s.sq.kinds = {} then .idle else .locked) ∧
          t.olu = (s.olu.post (.storeDone (.program t.sq.programmed s.sq.discarded s.sq.failed)
            (if s.sq.kinds = {} then .done else .locked) s.sq.kinds)).transmit) ∧
        (∀ m more, rest = m :: more → t.olu = s.olu.transmit ∧ t.sq.state = .programming ∧ t.sq.step = .read ∧
          t.fs.queue ++ t.fs.held = s.fs.queue ++ s.fs.held ++
            [{ requester := .sequencer, page := m.page, offset := m.offset, length := 256 }]) ∧
        t.fdm = s.fdm ∧ t.ch = s.ch ∧ t.ce = s.ce ∧ t.ex = s.ex ∧ t.sa = s.sa ∧ t.time = s.time

/-- Sections 7.2 and 7.4: STORE_ERASE in each state of the sequencer. In IDLE, a block in range, outside the window and free of face
regions begins an erase: all eight banks are BUSY, and the erase is sent unless a chosen request is being served. A failing test
refuses it with its kind and locks. -/
def Obligations.StoreEraseByState : Prop :=
  ∀ (s : State) (tag block : Byte), s.linkFree →
    let c := Instr.storeErase tag 0 block
    let b := block.toNat
    let locked (k : ErrorKinds) (r : Reason) :=
      exec c s = .next (({ s with sq := { s.sq with state := .locked, kinds := k } } : State).answered 0x31 tag 0 (.refuse r 0))
    (s.sq.state = .locked → exec c s = .next (s.answered 0x31 tag 0 (.refuse .storeLocked 0))) ∧
    (s.sq.state ≠ .locked → s.sq.state ≠ .idle → exec c s = .next (s.answered 0x31 tag 0 (.refuse .busy 0))) ∧
    (s.sq.state = .idle →
      (64 ≤ b → locked { s.sq.kinds with range := true } .range) ∧
      (b < 64 → s.sq.windowed b = true → locked { s.sq.kinds with protect := true } .protect) ∧
      (b < 64 → s.sq.windowed b = false → s.fdm.protects (64 * b) 64 = true →
        locked { s.sq.kinds with inUse := true } .inUse) ∧
      (b < 64 → s.sq.windowed b = false → s.fdm.protects (64 * b) 64 = false →
        exec c s = .next (({ s with
          sq := { s.sq with
            state := .erasing, eraseBlock := some b, suspendCount := 0, eraseLimit := s.sq.limit, suspendAwaited := false,
            eraseSent := decide (s.fs.path = .free), latest := some 0x31, previous := s.sq.latest },
          fs := { s.fs with banks := Vector.replicate 8 .busy } } : State).answered 0x31 tag 0 (.accept []))))

/-- Section 7.4: the store's reports of a running erase. PAUSED releases the banks and leaves the erase ERASE_SUSPENDED, or
running again with all banks BUSY when no fetch waits; no byte outside the block changes. DONE leaves every byte of the block 255
and every other byte as it was, releases the banks, posts STORE_DONE and leaves the sequencer IDLE, its erase block none though
section 7.7 would have it readable (the model's: log entry 52). -/
def Obligations.EraseReportsPauseAndComplete : Prop :=
  ∀ (s : State) (b : Nat), s.sq.state = .erasing → s.sq.eraseBlock = some b →
    (s.sq.suspendAwaited = true →
      ∃ t, exec .erasePaused s = .next t ∧ sameOutside (262144 * b) 262144 s t ∧
        t.sq = { s.sq with suspendAwaited := false, state := if s.fs.isIdle then .erasing else .eraseSuspended } ∧
        (s.fs.isIdle = true → t.fs.banks = Vector.replicate 8 .busy) ∧
        (s.fs.isIdle = false → ∀ n : Fin 8, t.fs.banks[n] ≠ .busy) ∧
        t.fdm = s.fdm ∧ t.ch = s.ch ∧ t.ce = s.ce ∧ t.ex = s.ex ∧ t.sa = s.sa) ∧
    (s.sq.eraseSent = true →
      ∃ t, exec .eraseDone s = .next t ∧
        (∀ x, 262144 * b ≤ x → x < 262144 * b + 262144 → readByte t.store x = 255) ∧
        sameOutside (262144 * b) 262144 s t ∧
        t.olu = (s.olu.post (.storeDone (.erase b s.sq.suspendCount) .done s.sq.kinds)).transmit ∧
        t.sq = { s.sq with
          state := .idle, eraseBlock := none, eraseSent := false, suspendAwaited := false,
          interrupted := if s.sq.interrupted = some b then none else s.sq.interrupted } ∧
        (∀ n : Fin 8, t.fs.banks[n] ≠ .busy) ∧
        t.fdm = s.fdm ∧ t.ch = s.ch ∧ t.ce = s.ce ∧ t.ex = s.ex ∧ t.sa = s.sa)

/-- Section 7.5: STORE_BLANK in IDLE of a range in order begins a check at its first page, or at its last going DOWN, and any
other range is refused RANGE and locks; it is refused STORE_LOCKED in LOCKED, and BUSY in any other state. STORE_READ outside
LOCKED of bytes in one page requests them, answered at once when the fetch queue has a place and no request is held, and otherwise
left in hand unanswered; any other place is refused RANGE, which does not lock; in LOCKED it is refused STORE_LOCKED. That the
check position's next page is the page being fetched is the model's (log entry 48). -/
def Obligations.BlankChecksAndReads : Prop :=
  ∀ (s : State) (tag : Byte), s.linkFree →
    (∀ (first last : Word) (down : Bool), s.sq.state = .idle →
      let c := Instr.storeBlank tag 0 first last (if down then 1 else 0)
      let start := if down then last.toNat else first.toNat
      (first.toNat ≤ last.toNat ∧ last.toNat < 4096 →
        exec c s = .next (({ s with
          sq := { s.sq with
            state := .checking, check := some ⟨first.toNat, last.toNat, down, start⟩,
            latest := some 0x32, previous := s.sq.latest },
          fs := s.fs.request { requester := .sequencer, page := start, offset := 0, length := 4096 } } : State).answered
            0x32 tag 0 (.accept []))) ∧
      (¬ (first.toNat ≤ last.toNat ∧ last.toNat < 4096) →
        exec c s = .next (({ s with sq := { s.sq with
          state := .locked, kinds := { s.sq.kinds with range := true } } } : State).answered 0x32 tag 0 (.refuse .range 0)))) ∧
    (∀ (first last : Word) (down : Bool),
      let c := Instr.storeBlank tag 0 first last (if down then 1 else 0)
      (s.sq.state = .locked → exec c s = .next (s.answered 0x32 tag 0 (.refuse .storeLocked 0))) ∧
      (s.sq.state ≠ .locked → s.sq.state ≠ .idle → exec c s = .next (s.answered 0x32 tag 0 (.refuse .busy 0)))) ∧
    (∀ page offset length : Word, s.sq.state = .locked →
      exec (.storeRead tag 0 page offset length) s = .next (s.answered 0x33 tag 0 (.refuse .storeLocked 0))) ∧
    (∀ page offset length : Word, s.sq.state ≠ .locked →
      let c := Instr.storeRead tag 0 page offset length
      let r : FetchReq := { requester := .link, page := page.toNat, offset := offset.toNat, length := length.toNat, ref := tag.toNat }
      let inPage := page.toNat < 4096 ∧ offset.toNat < 4096 ∧ offset.toNat + length.toNat ≤ 4096 ∧
        1 ≤ length.toNat ∧ length.toNat ≤ 256
      (inPage → s.fs.queue.length < 32 → s.fs.held = [] →
        exec c s = .next (({ s with fs := { s.fs with queue := s.fs.queue ++ [r] } } : State).answered 0x33 tag 0 (.accept []))) ∧
      (inPage → 32 ≤ s.fs.queue.length ∨ s.fs.held ≠ [] →
        exec c s = .next (({ s with
          fs := { s.fs with held := s.fs.held ++ [r] },
          olu := { s.olu with inHand := some ⟨0x33, tag, 0⟩ } } : State).settle)) ∧
      (¬ inPage → exec c s = .next (s.answered 0x33 tag 0 (.refuse .range 0))))

/-- Sections 7.4 and 7.6: STORE_MODE sets the suspend mode and limit, the limit clamped to 15, in IDLE and LOCKED and is refused
BUSY in every other state; STORE_WINDOW with the map lock clear sets the window to a run of blocks in order below 64, or to NONE,
in every state, and any other run is refused RANGE, which changes nothing. The layout of STORE_MODE's answer is the model's (log
entry 19). -/
def Obligations.StoreModeAndWindowSetTheirValues : Prop :=
  ∀ (s : State) (tag : Byte), s.linkFree →
    (∀ (mode limit : Byte), mode.toNat ≤ 1 →
      let m : SuspendMode := if mode = 0 then .fetchFirst else .eraseFirst
      let l := min 15 limit.toNat
      (s.sq.state = .idle ∨ s.sq.state = .locked →
        exec (.storeMode tag 0 mode limit) s =
          .next (({ s with sq := { s.sq with
              mode := m, limit := l, latest := some 0x34, previous := s.sq.latest } } : State).answered 0x34 tag 0
            (.accept (yesNo (decide (15 < limit.toNat)) ++ u8 m.code ++ u8 l)))) ∧
      (s.sq.state ≠ .idle → s.sq.state ≠ .locked →
        exec (.storeMode tag 0 mode limit) s = .next (s.answered 0x34 tag 0 (.refuse .busy 0)))) ∧
    (∀ (first last : Byte), s.fdm.lock = false →
      let window (w : Option (Nat × Nat)) := exec (.storeWindow tag 0 first last) s =
        .next (({ s with sq := { s.sq with
            window := w, latest := some 0x37, previous := s.sq.latest } } : State).answered 0x37 tag 0 (.accept []))
      (first = 255 ∧ last = 255 → window none) ∧
      (first.toNat ≤ last.toNat ∧ last.toNat < 64 → window (some (first.toNat, last.toNat))) ∧
      (¬ (first = 255 ∧ last = 255) → ¬ (first.toNat ≤ last.toNat ∧ last.toNat < 64) →
        exec (.storeWindow tag 0 first last) s = .next (s.answered 0x37 tag 0 (.refuse .range 0))))

/-- R133: STORE_CLEAR empties the error kinds; LOCKED goes to IDLE and IDLE stays; any other state refuses it BUSY and keeps lock
pending. The failed line, the session counts and the interrupted block stay, as does everything else but the two latest orders. -/
def Obligations.StoreClearEmptiesTheErrorKinds : Prop :=
  ∀ (s : State) (tag : Byte), s.linkFree →
    (s.sq.state = .idle ∨ s.sq.state = .locked →
      exec (.storeClear tag 0) s =
        .next (({ s with sq := { s.sq with
            state := .idle, kinds := {}, latest := some 0x35, previous := s.sq.latest } } : State).answered
          0x35 tag 0 (.accept []))) ∧
    (s.sq.state ≠ .idle → s.sq.state ≠ .locked →
      exec (.storeClear tag 0) s = .next (s.answered 0x35 tag 0 (.refuse .busy 0)))

/-- Section 7.6: STORE_ABORT, accepted in every state, leaves the sequencer IDLE with no error kinds and no lock pending; the
lines of a session are discarded; an erase that was sent, or is suspended, makes its block the interrupted block; only the bytes
of a line or erase that was sent may change; the answer names the operation and the kinds cleared. STORE_DONE is posted as ABORTED
with the operation ended, a blank check as BLANK (the model's: log entry 40), and with the kinds cleared or none of them (free: log
entry 20); the sequencer's record keeps no outcome and no check result (the model's: log entry 52). The request of a line or a check
is withdrawn, the bank of a line claimed or sent and the banks of a running erase are released, and in any other state the fetch
scheduler stays as it is. -/
def Obligations.StoreAbortEndsTheOperation : Prop :=
  ∀ (s : State) (tag : Byte), s.linkFree →
    ∃ t, exec (.storeAbort tag 0) s =
        .next (t.answered 0x36 tag 0 (.accept (u8 s.sq.abortedOp.code ++ u8 s.sq.kinds.byte))) ∧
      t.sq.state = .idle ∧ t.sq.kinds = {} ∧ t.sq.lockPending = false ∧ t.sq.latest = some 0x36 ∧
      t.sq.mode = s.sq.mode ∧ t.sq.limit = s.sq.limit ∧ t.sq.window = s.sq.window ∧ t.sq.failed = s.sq.failed ∧
      (s.sq.state = .programming → t.sq.buffer = [] ∧ t.sq.programmed = s.sq.programmed ∧
        t.sq.discarded = min 65535 (s.sq.discarded + s.sq.buffer.length)) ∧
      (∀ b, s.sq.state = .eraseSuspended ∨ (s.sq.state = .erasing ∧ s.sq.eraseSent = true) → s.sq.eraseBlock = some b →
        t.sq.interrupted = some b ∧ t.sq.eraseBlock = none ∧ t.sq.suspendAwaited = false ∧ sameOutside (262144 * b) 262144 s t) ∧
      (s.sq.state = .erasing → s.sq.eraseSent = false → t.sq.interrupted = s.sq.interrupted ∧ sameStore s t) ∧
      (∀ l rest, s.sq.state = .programming → s.sq.buffer = l :: rest → s.sq.step = .sent →
        sameOutside (4096 * l.page + l.offset) 256 s t) ∧
      (s.sq.state = .programming → s.sq.step ≠ .sent → sameStore s t) ∧
      (s.sq.state = .idle ∨ s.sq.state = .locked ∨ s.sq.state = .checking → sameStore s t) ∧
      (s.sq.state = .checking → t.sq.check = none) ∧
      (∃ k : ErrorKinds, (k = {} ∨ k = s.sq.kinds) ∧ t.olu = s.olu.post (.storeDone s.sq.abortedOp .aborted k)) ∧
      ((s.sq.state = .programming ∧ s.sq.step = .read ∧ s.sq.buffer ≠ []) ∨ s.sq.state = .checking →
        t.fs = s.fs.withdraw .sequencer ∧ (∀ r ∈ t.fs.queue ++ t.fs.held, r.requester ≠ .sequencer)) ∧
      (∀ l rest, s.sq.state = .programming → s.sq.buffer = l :: rest → s.sq.step ≠ .read →
        t.fs = s.fs.releaseBank (bankOf l.page) ∧ t.fs.banks[bankOf l.page] ≠ .busy) ∧
      (s.sq.state = .erasing → t.fs = s.fs.releaseAll ∧ ∀ n : Fin 8, t.fs.banks[n] ≠ .busy) ∧
      (s.sq.state = .eraseSuspended ∨ s.sq.state = .idle ∨ s.sq.state = .locked → t.fs = s.fs) ∧
      t.fdm = s.fdm ∧ t.ch = s.ch ∧ t.ce = s.ce ∧ t.ex = s.ex ∧ t.sa = s.sa

/-- Section 7.2: the sequencer never begins to program a line, nor to erase a block, that lies inside the protection window or
inside the region of a DEFINED or WITHDRAWING face at that time, whatever it was doing before: a line claimed or sent, and a block
being erased, that was not already so in the state before has passed the tests. -/
def Obligations.ProtectedPagesAreNeverWritten : Prop :=
  ∀ (s t : State) (c : Instr), exec c s = .next t →
    (t.sq.state = .programming → t.sq.step ≠ .read →
      ¬ (s.sq.state = .programming ∧ s.sq.step ≠ .read ∧ t.sq.buffer.head? = s.sq.buffer.head?) →
      ∃ l rest, t.sq.buffer = l :: rest ∧ t.sq.windowed (l.page / 64) = false ∧ t.fdm.protects l.page 1 = false) ∧
    (t.sq.state = .erasing ∨ t.sq.state = .eraseSuspended →
      ¬ ((s.sq.state = .erasing ∨ s.sq.state = .eraseSuspended) ∧ t.sq.eraseBlock = s.sq.eraseBlock) →
      ∃ b, t.sq.eraseBlock = some b ∧ b < 64 ∧ t.sq.windowed b = false ∧ t.fdm.protects (64 * b) 64 = false)

/-! ### The exposure controller and the strike port (chapters 8 and 9) -/

/-- Section 8.6: FILM_CUT with no line QUEUED or EXPOSING, no composition, and the EX UNREGISTERED, IDLE or HELD: every next
baseline becomes its column top, a HELD controller keeps a hold request, and the CUT is sent with its advance, or, with a
calibration due, the payback calibration; otherwise it is refused BUSY and changes nothing. (The chosen line it clears is none in
every run: log entry 18.) -/
def Obligations.FilmCutBeginsTheCut : Prop :=
  ∀ (s : State) (tag : Byte), s.linkFree →
    let free := s.ex.queued = [] ∧ s.ex.exposing = none ∧ s.ce.comp = none ∧
      (s.ex.state = .unregistered ∨ s.ex.state = .idle ∨ s.ex.state = .held)
    let rewound := s.ch.map (fun x => { x with next := x.top })
    let advance := if s.ex.registered then (s.ex.high - s.ex.film) + s.ex.cutMargin else s.ex.cutMargin
    (free → s.ex.counter < s.ex.interval →
      exec (.filmCut tag 0) s = .next (({ s with
        ch := rewound,
        ex := { s.ex with
          state := .cutting, cutPending := false, holdReq := s.ex.holdReq || decide (s.ex.state = .held), chosen := none },
        sa := { s.sa with lane := s.sa.lane ++ [.cut advance] } } : State).answered 0x40 tag 0 (.accept [0]))) ∧
    (free → s.ex.interval ≤ s.ex.counter →
      exec (.filmCut tag 0) s = .next (({ s with
        ch := rewound,
        ex := { s.ex with
          state := .calibrating, cutPending := true, holdReq := s.ex.holdReq || decide (s.ex.state = .held), chosen := none },
        sa := { s.sa with lane := s.sa.lane ++ [.calibrate] } } : State).answered 0x40 tag 0 (.accept [1]))) ∧
    (¬ free → exec (.filmCut tag 0) s = .next (s.answered 0x40 tag 0 (.refuse .busy 0)))

/-- Section 8.7: EXPOSE_SET. A malformed list is refused FORM in every state; otherwise it is refused BUSY during an operation;
otherwise each value, named or not, lies in its range afterwards, the reach of a registered film is at least H − F, the deferral
count is at most the limit, and nothing else of the part changes. -/
def Obligations.ExposeSetSetsTheValues : Prop :=
  ∀ (s : State) (tag : Byte) (fields : List FieldEntry), s.linkFree → fields.length ≤ 6 →
    (fieldsOk 6 fields = false →
      exec (.exposeSet tag 0 fields) s = .next (s.answered 0x41 tag 0 (.refuse .form 0))) ∧
    (fieldsOk 6 fields = true → s.ex.state = .exposing ∨ s.ex.state = .calibrating ∨ s.ex.state = .cutting →
      exec (.exposeSet tag 0 fields) s = .next (s.answered 0x41 tag 0 (.refuse .busy 0))) ∧
    (fieldsOk 6 fields = true → s.ex.state ≠ .exposing → s.ex.state ≠ .calibrating → s.ex.state ≠ .cutting →
      ∃ e : Ex,
        exec (.exposeSet tag 0 fields) s =
          .next (({ s with ex := e } : State).answered 0x41 tag 0
            (.accept (clampedList (s.ex.clampedFields fields) ++
              u16 e.reach ++ u16 e.interval ++ u16 e.deferLimit ++ u16 e.bypassLimit ++ u16 e.timeout ++ u16 e.cutMargin))) ∧
        e = { s.ex with
          reach := e.reach, interval := e.interval, deferLimit := e.deferLimit, bypassLimit := e.bypassLimit,
          timeout := e.timeout, cutMargin := e.cutMargin, deferral := min s.ex.deferral e.deferLimit } ∧
        e.interval = clampNat 16 1024 ((fieldValue fields 2).getD s.ex.interval) ∧
        e.deferLimit = clampNat 0 8 ((fieldValue fields 3).getD s.ex.deferLimit) ∧
        e.bypassLimit = clampNat 0 7 ((fieldValue fields 4).getD s.ex.bypassLimit) ∧
        e.timeout = clampNat 1 255 ((fieldValue fields 5).getD s.ex.timeout) ∧
        e.cutMargin = clampNat 0 4608 ((fieldValue fields 6).getD s.ex.cutMargin) ∧
        e.reach = (let r := clampNat 0 55296 ((fieldValue fields 1).getD s.ex.reach)
          if s.ex.registered then max r (s.ex.high - s.ex.film) else r))

/-- Sections 8.7 and 8.8: EXPOSE_HOLD and EXPOSE_RESUME by the state of the EX; nothing else changes. The result codes of
EXPOSE_HOLD and EXPOSE_RESUME are the model's (log entry 19). -/
def Obligations.ExposeHoldAndResumeByState : Prop :=
  ∀ (s : State) (tag : Byte), s.linkFree →
    let hold (e : Ex) (r : Bytes) := exec (.exposeHold tag 0) s = .next (({ s with ex := e } : State).answered 0x42 tag 0 (.accept r))
    let resume (e : Ex) (r : Bytes) :=
      exec (.exposeResume tag 0) s = .next (({ s with ex := e } : State).answered 0x43 tag 0 (.accept r))
    let operating := s.ex.state = .exposing ∨ s.ex.state = .calibrating ∨ s.ex.state = .cutting
    let rested : ExState := if s.ex.registered then .idle else .unregistered
    (s.ex.state = .idle ∨ s.ex.state = .unregistered → hold { s.ex with state := .held } [0]) ∧
    (s.ex.state = .held → hold s.ex [0]) ∧
    (operating ∨ s.ex.state = .faulted → hold { s.ex with holdReq := true } [1]) ∧
    (s.ex.state = .held → resume { s.ex with state := rested } [0]) ∧
    (operating → s.ex.holdReq = true → resume { s.ex with holdReq := false } [1]) ∧
    (s.ex.state = .faulted →
      resume { s.ex with
        fault := ⟨none, 0, .none⟩, holdReq := false, state := if s.ex.holdReq then .held else rested } [0]) ∧
    (s.ex.state = .idle ∨ s.ex.state = .unregistered ∨ (operating ∧ s.ex.holdReq = false) →
      exec (.exposeResume tag 0) s = .next (s.answered 0x43 tag 0 (.refuse .state 0)))

/-- Sections 8.3 to 8.5: the film arbiter. Outside IDLE, and with nothing QUEUED, it does nothing. With the oldest line O out of
reach, every QUEUED line of O's channel is lost, their LINE_LOST notices (each followed by the FACE_RETIRED of a face that retires
with it: log entries 37 and 50) in composition order and ahead of the channel's CHANNEL_HELD, the channel is HELD with REACH, or
has its hold request set while COMPOSING, and the arbiter runs again on what remains. With O reachable a line is chosen: O when
its count has reached L, and otherwise the reachable oldest line of a channel with the least travel, the older of equals; O's
count rises by 1 when it is passed over; and the line is exposed (`State.exposes`), a calibration that is due being deferred and
counted, or a CALIBRATE record goes ahead of it. -/
def Obligations.FilmArbiterChoosesAndExposes : Prop :=
  ∀ s : State,
    (s.ex.state ≠ .idle → exec .filmArbiter s = .next s.settle) ∧
    (s.ex.state = .idle → s.ex.queued = [] → exec .filmArbiter s = .next s.settle) ∧
    (∀ o rest, s.ex.state = .idle → s.ex.queued = o :: rest → s.ex.high > o.line.header.baseline + s.ex.reach →
      let c := o.line.header.channel
      let lost := s.ex.queued.filter (fun q => q.line.header.channel == c)
      let composing := s.ch[c].state = .composing
      let left := (s.fdm.decRefs (lost.flatMap (fun q => q.line.used))).1
      ∃ t l ns, exec .filmArbiter s = .next t ∧ exec .filmArbiter s = exec .filmArbiter l ∧
        l.ex = { s.ex with queued := s.ex.queued.filter (fun q => lost.all (fun x => x.slot != q.slot)) } ∧
        (∀ q ∈ t.ex.queued, q.line.header.channel ≠ c) ∧
        l.ch = setAt s.ch c (if composing then { s.ch[c] with holdReq := true }
          else { s.ch[c] with state := .held .reach, holdReq := false }) ∧
        l.fdm = (if s.ch[c].state = .mountWait then left.dropWaiter c else left) ∧
        (∀ n ∈ ns, (∃ q ∈ lost, n = Notice.lineLost q.line.header .reach) ∨ ∃ f p, n = Notice.faceRetired f p) ∧
        ns.filter (fun n => n.kind == (Notice.lineLost o.line.header .reach).kind) =
          lost.map (fun q => .lineLost q.line.header .reach) ∧
        l.olu = (ns ++ if composing then [] else
          [.channelHeld c .reach s.ch[c].consumed s.ch[c].lineCounter]).foldl (fun u n => u.post n) s.olu ∧
        l.ce = s.ce ∧ l.fs = s.fs ∧ l.sq = s.sq ∧ l.sa = s.sa ∧ l.store = s.store ∧ l.time = s.time) ∧
    (∀ o rest, s.ex.state = .idle → s.ex.queued = o :: rest → s.ex.high ≤ o.line.header.baseline + s.ex.reach →
      let reachable (y : QueuedLine) : Prop := s.ex.high ≤ y.line.header.baseline + s.ex.reach
      ∃ q ∈ s.ex.queued,
        (s.ex.bypassLimit ≤ o.bypass → q = o) ∧
        (o.bypass < s.ex.bypassLimit → reachable q ∧ ∃ older younger, s.ex.candidates = older ++ q :: younger ∧
          (∀ y ∈ older, reachable y → s.ex.distance q < s.ex.distance y) ∧
          (∀ y ∈ younger, reachable y → s.ex.distance q ≤ s.ex.distance y)) ∧
        s.ex.passOver o q = { s.ex with queued := s.ex.queued.map (fun y =>
          if q.slot ≠ o.slot ∧ y.slot = o.slot then { y with bypass := y.bypass + 1 } else y) } ∧
        (let deferred := s.ex.lastChannel = some q.line.header.channel ∧ s.ex.film ≤ q.line.header.baseline ∧
            s.ex.deferral < s.ex.deferLimit
         (s.ex.counter < s.ex.interval ∨ deferred →
            ∃ t, exec .filmArbiter s = .next t ∧ State.exposes q { s with ex := { s.ex.passOver o q with
                deferral := if s.ex.counter < s.ex.interval then s.ex.deferral else s.ex.deferral + 1 } } t ∧
              t.ex.queued = (s.ex.passOver o q).queued.filter (fun y => y.slot != q.slot)) ∧
         (s.ex.interval ≤ s.ex.counter → ¬ deferred →
            exec .filmArbiter s = .next ({ s with
              ex := { s.ex.passOver o q with state := .calibrating, chosen := some { slot := q.slot } },
              sa := { s.sa with lane := s.sa.lane ++ [.calibrate] } } : State).settle)))

/-- Sections 8.8, 9.1, 9.3 and 9.4: RECORD_SENT is the acknowledgement of the last byte of the record in the lane, and of any before
it not acknowledged yet (the model's: log entry 58): the record leaves the lane, and the first byte of the next, if any, is
presented. With an empty lane nothing happens, and an omitted record waits for the lane to be free (the model's: log entries 6 and
55). The exposure timeout starts when a LINE_END, CALIBRATE or CUT has been sent; a LINE_END leaves the assembler IDLE with every
buffer FREE. A LINE_BEGIN, a STRIKE and an EXTEND are followed by the next record of the line (`State.SendsNext`); of the last two
the buffer of the record at the send point becomes FREE and the send point moves on, and a master still to be fetched is requested
into that buffer, the only one FREE. -/
def Obligations.RecordSentMovesTheLane : Prop :=
  ∀ s : State,
    let deadline := some (s.time + 10000 * s.ex.timeout)
    (∀ r rest, s.sa.lane = r :: rest →
      ∃ t, exec .recordSent s = .next t ∧ t.sa.acked = 0 ∧ rest <:+ t.sa.lane ∧
        t.sa.presented = t.sa.lane.head?.bind (fun q => q.bytes.head?)) ∧
    (s.sa.lane = [] → exec .recordSent s = .next s.settle) ∧
    (∀ rest, s.sa.lane = .lineEnd :: rest →
      exec .recordSent s = .next ({ s with
        ex := { s.ex with timer := deadline },
        sa := { s.sa with lane := rest, acked := 0, assembly := none, buffers := Vector.replicate 8 .free } } : State).settle) ∧
    (∀ r rest, s.sa.lane = r :: rest → (r = .calibrate ∨ ∃ a, r = .cut a) →
      exec .recordSent s = .next ({ s with
        ex := { s.ex with timer := deadline }, sa := { s.sa with lane := rest, acked := 0 } } : State).settle) ∧
    (∀ tag travel rest, s.sa.lane = .lineBegin tag travel :: rest →
      ∃ v, exec .recordSent s = .next v.settle ∧ State.SendsNext { s with sa := { s.sa with lane := rest, acked := 0 } } v) ∧
    (∀ r rest, s.sa.lane = r :: rest →
      (∃ x dy size setw master, r = .strike x dy size setw master) ∨ (∃ x width size master, r = .extend x width size master) →
      let u := State.pumpSa { s with sa := Sa.sentRecord { s.sa with lane := rest, acked := 0 } }
      (∃ v, exec .recordSent s = .next v.settle ∧ State.SendsNext u v) ∧
      u = { s with sa := u.sa, fs := u.fs } ∧ u.sa.lane = rest ∧ u.sa.acked = 0 ∧
      (∀ w b data omitted, s.sa.assembly = some w → s.sa.filledFor w.sendPoint = some (b, data, omitted) →
        let w' := { w with sendPoint := w.sendPoint + 1 }
        (∃ n owed, u.sa.assembly = some { w' with fetchPoint := n, owed := owed } ∧ w.fetchPoint ≤ n) ∧
        (∀ d : Fin 8, d ≠ b → s.sa.buffers[d] ≠ .free → u.sa.buffers[d] = s.sa.buffers[d]) ∧
        (w.owed = [] → w.list.length ≤ w.fetchPoint →
          u.fs = s.fs ∧
          u.sa = { s.sa with lane := rest, acked := 0, assembly := some w', buffers := setAt s.sa.buffers b .free }) ∧
        (∀ next, w.owed = [] → s.fs.holdsFor .strike = false → w.list[w.fetchPoint]? = some next →
          (∀ d : Fin 8, s.sa.buffers[d] ≠ .free) →
          u.fs = s.fs.request (masterFetch s.fdm next.pos next.glyph b) ∧
          u.sa = { s.sa with
            lane := rest, acked := 0, assembly := some { w' with fetchPoint := w.fetchPoint + 1 },
            buffers := setAt s.sa.buffers b (.fetching w.fetchPoint false) })))

/-- Sections 8.4 to 8.6 and 9.1: a DONE, and a first byte of no return record. A byte of no record is discarded, and so is a DONE
that finds no operation awaiting one: a DONE in UNREGISTERED, IDLE, HELD or FAULTED, and one that comes while no timeout runs,
before the operation's last record has been sent (log entry 30). The DONE of an exposure posts LINE_EXPOSED ahead of any
FACE_RETIRED (which stand in the order of first use, the model's: log entry 37), ends the line's references, frees the slot,
raises the counter, and leaves the EX IDLE, or HELD under a hold request. The DONE of a calibration clears both counts and leads
to the payback cut with its advance, to HELD, to the exposure of the chosen line if it is still QUEUED (`State.exposes`), or else
to IDLE. The DONE of a cut registers the film at position 0 of a new page. -/
def Obligations.UnitDoneEndsTheOperation : Prop :=
  ∀ s : State, s.olu.phase ≠ .inReset → s.sa.returnPartial = false →
    let rested : ExState := if s.ex.holdReq then .held else .idle
    let advance := if s.ex.registered then (s.ex.high - s.ex.film) + s.ex.cutMargin else s.ex.cutMargin
    (∀ b : Byte, b ≠ 0x71 → b ≠ 0x72 → exec (.unknownReturnByte b) s = .next s.settle) ∧
    (s.ex.state = .unregistered ∨ s.ex.state = .idle ∨ s.ex.state = .held ∨ s.ex.state = .faulted ∨ s.ex.timer = none →
      exec .unitDone s = .next s.settle) ∧
    (∀ x d, s.ex.state = .exposing → s.ex.exposing = some x → s.ex.timer = some d →
      let r := s.fdm.decRefs x.line.used
      exec .unitDone s = .next (State.postAll (.lineExposed x.line.header x.travel s.ex.pageCount :: r.2)
        { s with fdm := r.1, ex := { s.ex with
          state := rested, holdReq := false, timer := none, exposing := none, counter := min 65535 (s.ex.counter + 1),
          lastChannel := some x.line.header.channel } }).settle ∧
      (∀ n ∈ r.2, ∃ f p, n = Notice.faceRetired f p) ∧
      (∀ p : Fin 8, p ∉ x.line.used → r.1.pos[p] = s.fdm.pos[p]) ∧
      (x.line.used.Nodup → ∀ p ∈ x.line.used, r.1.pos[p].count = s.fdm.pos[p].count - 1)) ∧
    (∀ d, s.ex.timer = some d → s.ex.state = .calibrating →
      (s.ex.cutPending = true →
        exec .unitDone s = .next ({ s with
          ex := { s.ex with state := .cutting, cutPending := false, timer := none, counter := 0, deferral := 0 },
          sa := { s.sa with lane := s.sa.lane ++ [.cut advance] } } : State).settle) ∧
      (s.ex.cutPending = false → s.ex.holdReq = true →
        exec .unitDone s = .next ({ s with ex := { s.ex with
          state := .held, holdReq := false, chosen := none, timer := none, counter := 0, deferral := 0 } } : State).settle) ∧
      (s.ex.cutPending = false → s.ex.holdReq = false →
        (∀ n, s.ex.chosen = some ⟨n, false⟩ → ∀ q ∈ s.ex.queued, q.slot ≠ n) →
        exec .unitDone s = .next ({ s with ex := { s.ex with
          state := .idle, chosen := none, timer := none, counter := 0, deferral := 0 } } : State).settle) ∧
      (∀ n q, s.ex.cutPending = false → s.ex.holdReq = false → s.ex.chosen = some ⟨n, false⟩ →
        s.ex.queued.find? (fun y => y.slot == n) = some q →
        ∃ t, exec .unitDone s = .next t ∧
          State.exposes q { s with ex := { s.ex with timer := none, counter := 0, deferral := 0 } } t)) ∧
    (∀ d, s.ex.timer = some d → s.ex.state = .cutting →
      exec .unitDone s = .next ({ s with ex := { s.ex with
        state := rested, holdReq := false, timer := none, film := 0, high := 0, registered := true,
        pageCount := s.ex.pageCount + 1 } } : State).settle)

/-- Sections 8.8 and 9.1: a FAULT, whose second byte in no table counts as TRANSPORT, and the expiry of the timeout. In FAULTED a
FAULT raises the count only, and may unregister the film. In any other state the EX enters FAULTED with the cause, count 1 and the
operation ended, and EXPOSE_FAULT is posted; an EXPOSING line is lost, its LINE_LOST comes before EXPOSE_FAULT, and a unit fault
withdraws the STRIKE requests; the outbound lane of a line is idle, a byte that awaited its acknowledgement withdrawn; a fault
during a cut, or TRANSPORT or FILM_OUT, unregisters the film; and QUEUED lines stay. That a face that retires with the line is
reported before EXPOSE_FAULT is the model's (log entry 44), and so is that the lane is idle after a calibration or a cut too (log
entry 25). -/
def Obligations.FaultsAndTimeoutStopTheController : Prop :=
  ∀ s : State, s.olu.phase ≠ .inReset → s.sa.returnPartial = false →
    (∀ b : Byte, s.ex.state = .faulted →
      let cause := faultKind b
      exec (.unitFault b) s = .next ({ s with ex := { s.ex with
        fault := { s.ex.fault with count := min 255 (s.ex.fault.count + 1) },
        registered := s.ex.registered && decide (cause = .lamp) } } : State).settle) ∧
    (∀ (c : Instr) (cause : FaultCause) (why : LossReason), s.ex.state ≠ .faulted →
      (∃ b, c = .unitFault b ∧ cause = faultKind b ∧ why = .fault) ∨
        (c = .exposureTimeout ∧ s.ex.timer ≠ none ∧ cause = .timeout ∧ why = .timeout) →
      ∃ t, exec c s = .next t ∧ t.ex.state = .faulted ∧ t.ex.timer = none ∧ t.ex.chosen = none ∧ t.ex.cutPending = false ∧
        t.ex.fault = ⟨some cause, 1, s.ex.operation⟩ ∧ t.ex.queued = s.ex.queued ∧
        t.ex.film = s.ex.film ∧ t.ex.high = s.ex.high ∧ t.ex.pageCount = s.ex.pageCount ∧ t.ex.counter = s.ex.counter ∧
        t.ex.deferral = s.ex.deferral ∧
        t.ex.registered = (s.ex.registered && decide (s.ex.state ≠ .cutting) && decide (cause = .lamp ∨ cause = .timeout)) ∧
        t.ex.holdReq = (s.ex.holdReq || decide (s.ex.state = .held)) ∧
        (s.ex.state ≠ .exposing → t.ex.exposing = s.ex.exposing ∧ t.fdm = s.fdm ∧
          t.olu = (s.olu.post (.exposeFault cause s.ex.operation t.ex.registered)).transmit) ∧
        (∀ x, s.ex.state = .exposing → s.ex.exposing = some x →
          t.ex.exposing = none ∧ t.sa.assembly = none ∧
          (why = .fault → ∀ r ∈ t.fs.queue ++ t.fs.held, r.requester ≠ .strike) ∧
          (∃ ns : List Notice, (∀ n ∈ ns, ∃ f p, n = Notice.faceRetired f p) ∧
            t.olu = (Olu.post (.exposeFault cause s.ex.operation t.ex.registered)
              (ns.foldl (fun o n => o.post n) (s.olu.post (.lineLost x.line.header why)))).transmit)) ∧
        (s.ex.state = .exposing ∨ s.ex.state = .calibrating ∨ s.ex.state = .cutting →
          t.sa.lane = [] ∧ t.sa.acked = 0 ∧ t.sa.strobeHigh = false) ∧
        (s.ex.state ≠ .exposing → s.ex.state ≠ .calibrating → s.ex.state ≠ .cutting → t.sa = s.sa) ∧
        t.ch = s.ch ∧ t.ce = s.ce ∧ t.store = s.store)

/-! ### Resets, returns and the reset record (chapter 10) -/

/-- Sections 10.7 and 10.8: power-on and the reset line. Power-on and a falling reset line leave every block at its value after
reset; the record becomes POWER alone, or gains LINE, a count and the operation in flight; the store changes only in that
operation's target, the outbound lane's strobe is low (section 9.1), and a line already low changes nothing; that power-on leads to
start-up at once is the model's (log entry 31). The line's return begins start-up with a close sent to each bank and the timebase at
0. Start-up ends when all closes are reported, with RESET_DONE ahead of any notice posted meanwhile. -/
def Obligations.ResetSourcesAndStartUp : Prop :=
  ∀ s : State,
    let fresh (t : State) : Prop := t.fdm = {} ∧ t.ch = Vector.replicate 4 {} ∧ t.ce = {} ∧ t.sq = {} ∧ t.ex = {} ∧ t.sa = {} ∧
      t.sa.strobeHigh = false ∧ t.time = 0 ∧ t.pending = s.pending ∧ (s.sq.inFlight = .none → t.store = s.store) ∧
      (∀ p, s.sq.inFlight = .program p → sameOutside (4096 * p) 4096 s t) ∧
      (∀ b, s.sq.inFlight = .erase b → sameOutside (262144 * b) 262144 s t)
    (∃ t, exec .powerOn s = .next t ∧ fresh t ∧
      t.olu = { phase := if s.olu.resetLow then .inReset else .startup, resetLow := s.olu.resetLow,
                record := ⟨true, false, false, 0, .none⟩ } ∧
      t.fs = { closing := Vector.replicate 8 (!s.olu.resetLow) }) ∧
    (s.olu.resetLow = false →
      ∃ t, exec .resetLineAssert s = .next t ∧ fresh t ∧ t.fs = {} ∧
        t.olu = { phase := .inReset, resetLow := true, record := { s.olu.record with
          line := true, count := min 255 (s.olu.record.count + 1),
          interrupted := if s.sq.inFlight = .none then s.olu.record.interrupted else s.sq.inFlight } } ∧
        t.olu.attentionLow = true ∧ t.olu.readyHigh = false) ∧
    (s.olu.resetLow = true →
      exec .resetLineAssert s = .next s.settle ∧
      exec .resetLineRelease s = .next ({ s with
        olu := { s.olu with resetLow := false, phase := .startup },
        fs := { s.fs with closing := Vector.replicate 8 true }, time := 0 } : State).settle) ∧
    (s.olu.phase = .startup → s.fs.closing = Vector.replicate 8 false → s.olu.notices.length < 32 →
      exec .startupEnd s = .next ({ s with olu := { s.olu with
        phase := .running, receiver := .waiting, notices := .resetDone s.olu.record :: s.olu.notices, lost := 0 } } : State).settle)

/-- Sections 10.4, 10.6 and 10.7: an answer sent in full, any bytes left of it with its last (the model's: log entry 58), frees its
frame store and the dispatcher; a notice sent in full frees the transmitter, which begins the notice at the head of the queue with
the lost-notice count in its header, its target the channel it concerns or 0 (which notices concern one is the model's: log entry
56), and the count back at 0; RESET is accepted at once, and takes effect with its answer's last byte: every block at its value
after reset and ORDER in the record. -/
def Obligations.ReturnsSentAndTheResetOrder : Prop :=
  ∀ s : State,
    (∀ r, s.olu.sending = some r → r.isAnswer = true → s.olu.resetDue = false →
      exec .answerSent s = .next ({ s with olu := { s.olu with sending := none, sent := 0, inHand := none } } : State).settle) ∧
    (∀ r, s.olu.sending = some r → r.isAnswer = false →
      exec .noticeSent s = .next ({ s with olu := { s.olu with sending := none, sent := 0 } } : State).settle) ∧
    (∀ r n rest, s.olu.sending = some r → r.isAnswer = false → s.olu.phase = .running → s.olu.answerSlot = none →
      s.olu.notices = n :: rest →
      exec .noticeSent s = .next { s with olu := { s.olu with
        sending := some ⟨n.kind, BitVec.ofNat 8 s.olu.lost, n.target, n.body⟩, sent := 0, lost := 0, notices := rest } }) ∧
    (∀ tag, s.linkFree →
      exec (.reset tag 0) s =
        .next (({ s with olu := { s.olu with resetDue := true } } : State).answered 0x51 tag 0 (.accept []))) ∧
    (∀ r, s.olu.sending = some r → r.isAnswer = true → s.olu.resetDue = true → s.olu.resetLow = false →
      ∃ t, exec .answerSent s = .next t ∧
        t.fdm = {} ∧ t.ch = Vector.replicate 4 {} ∧ t.ce = {} ∧ t.sq = {} ∧ t.ex = {} ∧ t.sa = {} ∧
        t.fs = { closing := Vector.replicate 8 true } ∧ t.time = 0 ∧
        t.olu = { phase := .startup, record := { s.olu.record with
          order := true, count := min 255 (s.olu.record.count + 1),
          interrupted := if s.sq.inFlight = .none then s.olu.record.interrupted else s.sq.inFlight } })

/-- R183: RECORD_CLEAR empties the reset record, answers with the record as it stood, and changes no other state. -/
def Obligations.RecordClearEmptiesTheRecord : Prop :=
  ∀ (s : State) (tag : Byte), s.linkFree →
    exec (.recordClear tag 0) s =
      .next (({ s with olu := { s.olu with record := ⟨false, false, false, 0, .none⟩ } } : State).answered
        0x52 tag 0 (.accept s.olu.record.bytes))

/-! ### Composition (chapter 5) -/

/-- Section 5.1: the arbiter's choice with the engine IDLE and fewer than 16 slots taken: the first PENDING channel after the last
served becomes the last served and COMPOSING, and a composition of all it holds begins under its context, in a slot that was FREE,
with the engine's first step, from the line-start face test to the first draw (the model's: log entries 5 and 12); a composition
that has read no unit holds no reference; the other channels, the queue, the film and the store stay as they are. -/
def Obligations.ArbiterServesTheNextPendingChannel : Prop :=
  ∀ (s : State) (k : Fin 4), s.ce.comp = none → s.slotsTaken.length < 16 →
    s.ch[s.ce.lastServed + 1 + k].state = .pending →
    (∀ j : Fin 4, j < k → s.ch[s.ce.lastServed + 1 + j].state ≠ .pending) →
      let c := s.ce.lastServed + 1 + k
      ∃ slot, slot ∉ s.slotsTaken ∧
        let begun : State := { s with
          ch := setAt s.ch c { s.ch[c] with state := .composing },
          ce := { lastServed := c, comp := some (s.ch[c].begin c slot) } }
        exec .arbiterChoice s = .next begun.readNext.settle ∧
        ∃ t comp, exec .arbiterChoice s = .next t ∧ t.ce = { lastServed := c, comp := some comp } ∧
          comp.channel = c ∧ comp.slot = slot ∧ comp.spanLen = s.ch[c].buffer.length ∧ comp.ctx = s.ch[c].ctx ∧
          comp.carry = s.ch[c].carry ∧ comp.discard = false ∧
          comp.read.map (fun r => (⟨r.unit, r.tag⟩ : BufUnit)) <+: s.ch[c].buffer ∧
          (comp.read = [] → comp.used = [] ∧ t.fdm = s.fdm) ∧
          t.ch = begun.ch ∧ t.ex = s.ex ∧ t.sq = s.sq ∧ t.fs = s.fs ∧ t.sa = s.sa ∧ t.store = s.store ∧ t.time = s.time

/-- Sections 5.3 and 5.6: a composition whose line end is decided, once the engine has read on, delivers its line: LINE_SET is
posted and the line is QUEUED last in its slot with a bypass count of 0; its baseline is one leading below the channel's next
baseline, held at 4,194,303, and its number is the line counter; the units up to its end leave the channel's buffer, the counter
and the consumed-unit count follow. The running context takes the values in force at the break, an END_PARA setting the paragraph
quad and the run direction, and the pending changes go over them (sections 4.2 and 4.3); the join carry is set where the line ends
inside a run after a DUAL character, a FORCED line only when the next unit read continues the run (the model's: log entry 16), and
cleared otherwise (section 3.3); the positions used become the most recent, in the order of first use (section 2.3). With no hold
request the channel takes the eligibility test; with one it is HELD with REACH, and CHANNEL_HELD follows LINE_SET; other channels
stay as they are. That the ending command reads on first is the model's (log entry 5). -/
def Obligations.LineDeliveryQueuesTheLine : Prop :=
  ∀ (s : State) (c : Composition) (e : LineEnd),
    s.readOn.ce.comp = some c → c.discard = false → c.decided s.readOn.metrics = some e →
      let u := s.readOn
      let x := u.ch[c.channel]
      ∃ t line, exec .lineDelivery s = .next t ∧
        t.ex = { u.ex with queued := u.ex.queued ++ [⟨c.slot, line, 0⟩] } ∧ t.ce = { u.ce with comp := none } ∧
        line.header.channel = c.channel ∧ line.header.lineNumber = x.lineCounter ∧
        line.header.baseline = min 4194303 (x.next + c.ctx.leading) ∧ line.used = c.used ∧
        line.header.firstIndex = x.consumed ∧ line.header.breakIndex = x.consumed + BitVec.ofNat 32 (e.unit + 1) ∧
        line.header.marks.overset = e.overset ∧ line.header.measure = c.ctx.measure ∧
        t.ch[c.channel].buffer = x.buffer.drop (e.unit + 1) ∧ t.ch[c.channel].consumed = line.header.breakIndex ∧
        t.ch[c.channel].pendSet = [] ∧ t.ch[c.channel].pendCol = none ∧
        (let w := (c.read[e.unit]?.map (·.work)).getD c.work
         t.ch[c.channel].ctx = Context.writeAll
           { x.ctx with face := w.face, size := w.size, setw := w.setw, track := w.track, ligs := w.ligs } x.pendSet ∧
         t.ch[c.channel].runDir = (match x.pendSet.find? (fun v => v.1 == .paraDir) with
           | some v => dirOf v.2.toNat
           | none => match e.kind with
             | .endPara _ => c.ctx.paraDir
             | _ => w.dir) ∧
         t.ch[c.channel].paraQuad = match e.kind with
           | .endPara q => q
           | _ => w.quad) ∧
        (let inRun := (∃ hyphen, e.kind = .brk hyphen) ∨ (e.kind = .forced ∧ ∃ a b, c.read[e.unit]? = some a ∧
           c.read[e.unit + 1]? = some b ∧ a.endsRun = false ∧ b.endsRun = false ∧ a.run = b.run)
         let dual := ∃ before l after, lettersOf u.metrics c.read = before ++ l :: after ∧ l.idx ≤ e.unit ∧ l.entry.cls = 2 ∧
           ∀ m ∈ after, m.idx ≤ e.unit → m.entry.cls = 3
         (∀ r, c.read[e.unit]? = some r → inRun → dual → t.ch[c.channel].carry = some ⟨r.work.drawn.face, r.work.dir⟩) ∧
         (¬ (inRun ∧ dual) → t.ch[c.channel].carry = none)) ∧
        t.fdm = { u.fdm with recency := t.fdm.recency } ∧
        (c.used.Nodup → t.fdm.recency = u.fdm.recency.filter (fun p => decide (p ∉ c.used)) ++ c.used) ∧
        (x.pendCol = none → t.ch[c.channel].next = line.header.baseline ∧ t.ch[c.channel].lineCounter = x.lineCounter + 1) ∧
        (∀ top, x.pendCol = some top → t.ch[c.channel].next = top ∧ t.ch[c.channel].top = top ∧ t.ch[c.channel].lineCounter = 0) ∧
        (x.holdReq = false → t.ch[c.channel].state = eligibility (x.buffer.drop (e.unit + 1)) ∧
          t.olu = (u.olu.post (.lineSet line.header)).transmit) ∧
        (x.holdReq = true → t.ch[c.channel].state = .held .reach ∧ t.ch[c.channel].holdReq = false ∧
          t.olu = ((u.olu.post (.lineSet line.header)).post
            (.channelHeld c.channel .reach line.header.breakIndex t.ch[c.channel].lineCounter)).transmit) ∧
        (∀ d, d ≠ c.channel → t.ch[d] = u.ch[d]) ∧
        t.fs = u.fs ∧ t.sq = u.sq ∧ t.sa = u.sa ∧ t.store = u.store

/-- Section 5.2: a composition that, once the engine has read on, has no line end is abandoned: its slot is free, no unit leaves
the buffer, the pending changes are applied, and without a hold request its channel becomes MOUNT_WAIT in the request of the face
it wants, HELD with FACE where no face can be used, and otherwise IDLE, or PENDING with a full buffer; with one it is HELD with
REACH. Its references are released, and a hold posts CHANNEL_HELD, before or after the FACE_RETIRED notices of faces that retire
with them (free: log entry 21), which stand in the order of first use (the model's: log entry 37). That the ending command reads
on first, and that the face test is made again at the ending, are the model's (log entries 5 and 33). -/
def Obligations.AbandonmentLeavesTheCopy : Prop :=
  ∀ (s : State) (c : Composition),
    s.readOn.ce.comp = some c → c.discard = false → c.decided s.readOn.metrics = none →
      let u := s.readOn
      let x := u.ch[c.channel]
      ∃ t, exec .compositionAbandon s = .next t ∧ t.ce = { u.ce with comp := none } ∧
        t.ch[c.channel].buffer = x.buffer ∧ t.ch[c.channel].consumed = x.consumed ∧ t.ch[c.channel].carry = x.carry ∧
        t.ch[c.channel].pendSet = [] ∧ t.ch[c.channel].pendCol = none ∧ t.ch[c.channel].ctx = x.ctx.writeAll x.pendSet ∧
        (x.holdReq = true → t.ch[c.channel].state = .held .reach ∧ t.ch[c.channel].holdReq = false) ∧
        (x.holdReq = false →
          (∀ f, u.stopNow c = some (.mount f) → t.ch[c.channel].state = .mountWait ∧
            ∃ r ∈ t.fdm.requests, r.face = f ∧ c.channel ∈ r.waiters) ∧
          (u.stopNow c = some .face → t.ch[c.channel].state = .held .face) ∧
          (u.stopNow c = none → t.ch[c.channel].state = if 4096 ≤ x.buffer.length then .pending else .idle)) ∧
        (let r := u.fdm.decRefs c.used
         let posts (ns : List Notice) : Prop := t.olu = (ns.foldl (fun o n => o.post n) u.olu).transmit
         let held : Notice := .channelHeld c.channel (if x.holdReq then .reach else .face) x.consumed t.ch[c.channel].lineCounter
         (x.holdReq = true ∨ u.stopNow c = some .face →
           t.fdm = r.1 ∧ (posts (r.2 ++ [held]) ∨ posts (held :: r.2))) ∧
         (x.holdReq = false → (∀ f, u.stopNow c = some (.mount f) → t.fdm = r.1.requestMount f c.channel ∧ posts r.2) ∧
           (u.stopNow c = none → t.fdm = r.1 ∧ posts r.2)) ∧
         (∀ n ∈ r.2, ∃ f p, n = Notice.faceRetired f p) ∧
         (∀ p : Fin 8, p ∉ c.used → r.1.pos[p] = u.fdm.pos[p]) ∧
         (c.used.Nodup → ∀ p ∈ c.used, r.1.pos[p].count = u.fdm.pos[p].count - 1)) ∧
        (∀ d, d ≠ c.channel → t.ch[d] = u.ch[d]) ∧
        t.ex = u.ex ∧ t.fs = u.fs ∧ t.sq = u.sq ∧ t.sa = u.sa ∧ t.store = u.store

/-- Section 1.2: a scaled value is within half a unit of the exact quotient, an exact half goes away from zero, and values of
opposite sign scale to opposite results. -/
def Obligations.ScalingRoundsToNearest : Prop :=
  ∀ (v : Int) (z d : Nat), 0 < d →
    2 * (scale v z d * d - v * z * 16) ≤ d ∧ 2 * (v * z * 16 - scale v z d * d) ≤ d ∧
    (∀ k : Nat, 2 * (v.natAbs * z * 16) = (2 * k + 1) * d → scale v z d = if v < 0 then -((k : Int) + 1) else k + 1) ∧
    scale (-v) z d = - scale v z d

/-- Section 5.4: an amount spread over n slots is spread whole, no two shares differ by more than 1, and the larger shares come
first; and the spreading of a line's slack places it whole: a line that is not OVERSET has a width of at most the measure, a
JUSTIFY line neither OVERSET nor UNFILLED has the measure as its width, and its natural width with the amounts added or taken away
is its width. -/
def Obligations.SpreadingFillsTheMeasure : Prop :=
  (∀ amount n : Nat, 0 < n →
    ((List.range n).map (share amount n)).sum = amount ∧
    ∀ i j, i ≤ j → share amount n j ≤ share amount n i ∧ share amount n i ≤ share amount n j + 1) ∧
  (∀ (g : Setting) (quad : Quad) (nOpt nMin : Int) (k e n : Nat),
    let f := fillLine g quad false nOpt nMin k e n
    f.width ≤ (g.ctx.measure : Int) ∧
    (quad = .justify → f.unfilled = false → f.width = (g.ctx.measure : Int)) ∧
    f.width = nOpt - (f.shrink : Int) + (f.stretch : Int) + (f.beyond : Int) + (f.elong : Int) + (f.letter : Int) ∧
    f.elong ≤ e * g.elongCap ∧ f.letter ≤ n * g.letterCap ∧ f.stretch ≤ k * (g.spMax - g.spOpt).toNat)

/-- Section 5.5: the visual order of a line holds each element once; a line of one direction in a paragraph of that direction
keeps its logical order when LTR and is reversed entire when RTL. -/
def Obligations.VisualOrderKeepsEveryElement : Prop :=
  ∀ (para : Dir) (els : List (Nat × Placement)),
    (visualOrder para els).Perm els ∧
    (para = .ltr → (∀ x ∈ els, x.2.dir = .ltr) → visualOrder para els = els) ∧
    (para = .rtl → (∀ x ∈ els, x.2.dir = .rtl) → visualOrder para els = els.reverse)

/-! ### Laws that every step keeps -/

/-- Every law of the part holds after a power-on reset. -/
def Obligations.ResetHasEveryLaw : Prop :=
  StoreLaw State.reset ∧ LinkLaw State.reset ∧ FetchLaw State.reset ∧ CopyLaw State.reset ∧ SettingLaw State.reset ∧
    RegionLaw State.reset ∧ SequencerLaw State.reset ∧ LaneLaw State.reset ∧ SlotLaw State.reset ∧ BypassLaw State.reset ∧
    DeferralLaw State.reset ∧ FilmLaw State.reset ∧ UsedLaw State.reset ∧ ReferenceLaw State.reset

/-- Every step keeps the canonical form of the store (log entry 1). -/
def Obligations.StepKeepsStoreLaw : Prop := ∀ s t : State, StoreLaw s → step s = .next t → StoreLaw t

/-- Sections 10.4 and 10.6: every step keeps at most 32 notices waiting, at most two frame stores occupied, and the bytes gone of a
return short of its last (the count is the model's: log entry 58). -/
def Obligations.StepKeepsLinkLaw : Prop := ∀ s t : State, LinkLaw s → step s = .next t → LinkLaw t

/-- Sections 6.4, 6.5 and 6.7: every step keeps at most 32 requests in the fetch queue, a bypass count of 0 on every request but the
oldest, and no count or limit above 15. -/
def Obligations.StepKeepsFetchLaw : Prop := ∀ s t : State, FetchLaw s → step s = .next t → FetchLaw t

/-- Section 4.3: every step keeps at most 4,096 units in each channel's copy buffer. -/
def Obligations.StepKeepsCopyLaw : Prop := ∀ s t : State, CopyLaw s → step s = .next t → CopyLaw t

/-- Sections 1.3 and 4.2: every step keeps in range the fields of each channel's context that copy cannot change (all but the
size, set width and tracking), with its word spaces ordered, now and with its pending fields applied, which hold the raised word
spaces too (the model's: log entry 26), and pending fields only while the channel is COMPOSING. -/
def Obligations.StepKeepsSettingLaw : Prop := ∀ s t : State, SettingLaw s → step s = .next t → SettingLaw t

/-- Section 2.1: every step keeps the regions of DEFINED and WITHDRAWING faces from overlapping. -/
def Obligations.StepKeepsRegionLaw : Prop := ∀ s t : State, RegionLaw s → step s = .next t → RegionLaw t

/-- Sections 7.2 to 7.4: every step keeps the sequencer's operations to their states, its buffer to two lines, and the suspensions
of an erase to the limit in force when it began. -/
def Obligations.StepKeepsSequencerLaw : Prop := ∀ s t : State, SequencerLaw s → step s = .next t → SequencerLaw t

/-- Sections 8.1, 8.3, 8.4 and 9.1: every step keeps the slots of the exposure queue apart, and with them the bypass counts at 0 but
for the oldest line's, at most 7; keeps the deferral count within its limit; and keeps the bytes acknowledged of an outbound record
short of its last, and none acknowledged while the lane is idle (the count is the model's: log entry 58). -/
def Obligations.StepKeepsExposureQueueLaws : Prop :=
  ∀ s t : State, step s = .next t →
    (SlotLaw s → SlotLaw t) ∧ (SlotLaw s → BypassLaw s → BypassLaw t) ∧ (DeferralLaw s → DeferralLaw t) ∧
      (LaneLaw s → LaneLaw t)

/-- Sections 8.2 and 8.5: every step keeps a registered film within the reach of its high-water mark, and the line chosen ahead of a
calibration QUEUED and reachable. -/
def Obligations.StepKeepsFilmLaw : Prop := ∀ s t : State, SlotLaw s → FilmLaw s → step s = .next t → FilmLaw t

/-- Sections 2.3 and 5.1: every step keeps each position's count equal to the number of lines that hold a reference to it, a
position with a nonzero count MOUNTED, and a load in a position that is LOADING its face. -/
def Obligations.StepKeepsReferenceLaw : Prop :=
  ∀ s t : State, SlotLaw s → UsedLaw s → ReferenceLaw s → step s = .next t → UsedLaw t ∧ ReferenceLaw t
end

