-- ==== Sys2Proof/Laws/State.lean ====
section
/-! SUPPORT. What each small update of the state leaves in each field: one lemma per field and update, so that no proof unfolds a
record update. -/

namespace Sys2Proof.Machine

/-! ### Numbered groups -/

@[simp] theorem setAt_same {α : Type} {n : Nat} (v : Vector α n) (i : Fin n) (x : α) : (setAt v i x)[i] = x := by
  simp [setAt]

@[simp] theorem setAt_same_val {α : Type} {n : Nat} (v : Vector α n) (i : Fin n) (x : α) : (setAt v i x)[i.val] = x := by
  simp [setAt]

theorem setAt_other {α : Type} {n : Nat} (v : Vector α n) (i j : Fin n) (x : α) (h : j ≠ i) : (setAt v i x)[j] = v[j] := by
  have : i.val ≠ j.val := fun e => h (Fin.ext e.symm)
  simp [setAt, Vector.getElem_set_ne, this]

theorem setAt_get {α : Type} {n : Nat} (v : Vector α n) (i j : Fin n) (x : α) :
    (setAt v i x)[j] = if j = i then x else v[j] := by
  by_cases h : j = i
  · subst h; simp
  · rw [if_neg h]; exact setAt_other v i j x h

/-! ### Bytes that go out one at a time -/

/-- Where bytes are left before the last, some number of them goes. -/
theorem gone_of_lt {len sofar : Nat} (h : sofar + 1 < len) (n : Nat) : ∃ k, sofar + k < len ∧ gone len sofar n = sofar + k :=
  ⟨min n (len - 1 - sofar), by omega, by unfold gone; omega⟩

/-! ### A command's end -/

@[simp] theorem State.settle_fdm (s : State) : (s.settle).fdm = s.fdm := rfl

@[simp] theorem State.settle_ch (s : State) : (s.settle).ch = s.ch := rfl

@[simp] theorem State.settle_ce (s : State) : (s.settle).ce = s.ce := rfl

@[simp] theorem State.settle_fs (s : State) : (s.settle).fs = s.fs := rfl

@[simp] theorem State.settle_sq (s : State) : (s.settle).sq = s.sq := rfl

@[simp] theorem State.settle_ex (s : State) : (s.settle).ex = s.ex := rfl

@[simp] theorem State.settle_sa (s : State) : (s.settle).sa = s.sa := rfl

@[simp] theorem State.settle_store (s : State) : (s.settle).store = s.store := rfl

@[simp] theorem State.settle_time (s : State) : (s.settle).time = s.time := rfl

@[simp] theorem State.settle_serial (s : State) : (s.settle).serial = s.serial := rfl

@[simp] theorem State.settle_pending (s : State) : (s.settle).pending = s.pending := rfl

/-! ### A notice posted -/

@[simp] theorem State.post_fdm (n : Notice) (s : State) : (s.post n).fdm = s.fdm := rfl

@[simp] theorem State.post_ch (n : Notice) (s : State) : (s.post n).ch = s.ch := rfl

@[simp] theorem State.post_ce (n : Notice) (s : State) : (s.post n).ce = s.ce := rfl

@[simp] theorem State.post_fs (n : Notice) (s : State) : (s.post n).fs = s.fs := rfl

@[simp] theorem State.post_sq (n : Notice) (s : State) : (s.post n).sq = s.sq := rfl

@[simp] theorem State.post_ex (n : Notice) (s : State) : (s.post n).ex = s.ex := rfl

@[simp] theorem State.post_sa (n : Notice) (s : State) : (s.post n).sa = s.sa := rfl

@[simp] theorem State.post_store (n : Notice) (s : State) : (s.post n).store = s.store := rfl

@[simp] theorem State.post_time (n : Notice) (s : State) : (s.post n).time = s.time := rfl

@[simp] theorem State.post_serial (n : Notice) (s : State) : (s.post n).serial = s.serial := rfl

@[simp] theorem State.post_pending (n : Notice) (s : State) : (s.post n).pending = s.pending := rfl

/-! ### An order in hand -/

@[simp] theorem State.inHand_fdm (h : Head) (s : State) : (s.inHand h).fdm = s.fdm := rfl

@[simp] theorem State.inHand_ch (h : Head) (s : State) : (s.inHand h).ch = s.ch := rfl

@[simp] theorem State.inHand_ce (h : Head) (s : State) : (s.inHand h).ce = s.ce := rfl

@[simp] theorem State.inHand_fs (h : Head) (s : State) : (s.inHand h).fs = s.fs := rfl

@[simp] theorem State.inHand_sq (h : Head) (s : State) : (s.inHand h).sq = s.sq := rfl

@[simp] theorem State.inHand_ex (h : Head) (s : State) : (s.inHand h).ex = s.ex := rfl

@[simp] theorem State.inHand_sa (h : Head) (s : State) : (s.inHand h).sa = s.sa := rfl

@[simp] theorem State.inHand_store (h : Head) (s : State) : (s.inHand h).store = s.store := rfl

@[simp] theorem State.inHand_time (h : Head) (s : State) : (s.inHand h).time = s.time := rfl

@[simp] theorem State.inHand_serial (h : Head) (s : State) : (s.inHand h).serial = s.serial := rfl

@[simp] theorem State.inHand_pending (h : Head) (s : State) : (s.inHand h).pending = s.pending := rfl

/-! ### A channel's new content -/

@[simp] theorem State.setCh_olu (c : Fin 4) (x : Channel) (s : State) : (s.setCh c x).olu = s.olu := rfl

@[simp] theorem State.setCh_fdm (c : Fin 4) (x : Channel) (s : State) : (s.setCh c x).fdm = s.fdm := rfl

@[simp] theorem State.setCh_ce (c : Fin 4) (x : Channel) (s : State) : (s.setCh c x).ce = s.ce := rfl

@[simp] theorem State.setCh_fs (c : Fin 4) (x : Channel) (s : State) : (s.setCh c x).fs = s.fs := rfl

@[simp] theorem State.setCh_sq (c : Fin 4) (x : Channel) (s : State) : (s.setCh c x).sq = s.sq := rfl

@[simp] theorem State.setCh_ex (c : Fin 4) (x : Channel) (s : State) : (s.setCh c x).ex = s.ex := rfl

@[simp] theorem State.setCh_sa (c : Fin 4) (x : Channel) (s : State) : (s.setCh c x).sa = s.sa := rfl

@[simp] theorem State.setCh_store (c : Fin 4) (x : Channel) (s : State) : (s.setCh c x).store = s.store := rfl

@[simp] theorem State.setCh_time (c : Fin 4) (x : Channel) (s : State) : (s.setCh c x).time = s.time := rfl

@[simp] theorem State.setCh_serial (c : Fin 4) (x : Channel) (s : State) : (s.setCh c x).serial = s.serial := rfl

@[simp] theorem State.setCh_pending (c : Fin 4) (x : Channel) (s : State) : (s.setCh c x).pending = s.pending := rfl

/-! ### A program line written -/

@[simp] theorem State.writeLine_olu (l : ProgLine) (s : State) : (s.writeLine l).olu = s.olu := rfl

@[simp] theorem State.writeLine_fdm (l : ProgLine) (s : State) : (s.writeLine l).fdm = s.fdm := rfl

@[simp] theorem State.writeLine_ch (l : ProgLine) (s : State) : (s.writeLine l).ch = s.ch := rfl

@[simp] theorem State.writeLine_ce (l : ProgLine) (s : State) : (s.writeLine l).ce = s.ce := rfl

@[simp] theorem State.writeLine_fs (l : ProgLine) (s : State) : (s.writeLine l).fs = s.fs := rfl

@[simp] theorem State.writeLine_sq (l : ProgLine) (s : State) : (s.writeLine l).sq = s.sq := rfl

@[simp] theorem State.writeLine_ex (l : ProgLine) (s : State) : (s.writeLine l).ex = s.ex := rfl

@[simp] theorem State.writeLine_sa (l : ProgLine) (s : State) : (s.writeLine l).sa = s.sa := rfl

@[simp] theorem State.writeLine_time (l : ProgLine) (s : State) : (s.writeLine l).time = s.time := rfl

@[simp] theorem State.writeLine_serial (l : ProgLine) (s : State) : (s.writeLine l).serial = s.serial := rfl

@[simp] theorem State.writeLine_pending (l : ProgLine) (s : State) : (s.writeLine l).pending = s.pending := rfl

/-! ### A block erased -/

@[simp] theorem State.blankBlock_olu (b : Nat) (s : State) : (s.blankBlock b).olu = s.olu := rfl

@[simp] theorem State.blankBlock_fdm (b : Nat) (s : State) : (s.blankBlock b).fdm = s.fdm := rfl

@[simp] theorem State.blankBlock_ch (b : Nat) (s : State) : (s.blankBlock b).ch = s.ch := rfl

@[simp] theorem State.blankBlock_ce (b : Nat) (s : State) : (s.blankBlock b).ce = s.ce := rfl

@[simp] theorem State.blankBlock_fs (b : Nat) (s : State) : (s.blankBlock b).fs = s.fs := rfl

@[simp] theorem State.blankBlock_sq (b : Nat) (s : State) : (s.blankBlock b).sq = s.sq := rfl

@[simp] theorem State.blankBlock_ex (b : Nat) (s : State) : (s.blankBlock b).ex = s.ex := rfl

@[simp] theorem State.blankBlock_sa (b : Nat) (s : State) : (s.blankBlock b).sa = s.sa := rfl

@[simp] theorem State.blankBlock_time (b : Nat) (s : State) : (s.blankBlock b).time = s.time := rfl

@[simp] theorem State.blankBlock_serial (b : Nat) (s : State) : (s.blankBlock b).serial = s.serial := rfl

@[simp] theorem State.blankBlock_pending (b : Nat) (s : State) : (s.blankBlock b).pending = s.pending := rfl

/-! ### Bytes left undefined -/

@[simp] theorem State.undefine_olu (a n : Nat) (s : State) : (s.undefine a n).olu = s.olu := rfl

@[simp] theorem State.undefine_fdm (a n : Nat) (s : State) : (s.undefine a n).fdm = s.fdm := rfl

@[simp] theorem State.undefine_ch (a n : Nat) (s : State) : (s.undefine a n).ch = s.ch := rfl

@[simp] theorem State.undefine_ce (a n : Nat) (s : State) : (s.undefine a n).ce = s.ce := rfl

@[simp] theorem State.undefine_fs (a n : Nat) (s : State) : (s.undefine a n).fs = s.fs := rfl

@[simp] theorem State.undefine_sq (a n : Nat) (s : State) : (s.undefine a n).sq = s.sq := rfl

@[simp] theorem State.undefine_ex (a n : Nat) (s : State) : (s.undefine a n).ex = s.ex := rfl

@[simp] theorem State.undefine_sa (a n : Nat) (s : State) : (s.undefine a n).sa = s.sa := rfl

@[simp] theorem State.undefine_time (a n : Nat) (s : State) : (s.undefine a n).time = s.time := rfl

@[simp] theorem State.undefine_pending (a n : Nat) (s : State) : (s.undefine a n).pending = s.pending := rfl

/-! ### Bytes received -/

@[simp] theorem State.rxBytes_fdm (bs : Bytes) (s : State) : (s.rxBytes bs).fdm = s.fdm := rfl

@[simp] theorem State.rxBytes_ch (bs : Bytes) (s : State) : (s.rxBytes bs).ch = s.ch := rfl

@[simp] theorem State.rxBytes_ce (bs : Bytes) (s : State) : (s.rxBytes bs).ce = s.ce := rfl

@[simp] theorem State.rxBytes_fs (bs : Bytes) (s : State) : (s.rxBytes bs).fs = s.fs := rfl

@[simp] theorem State.rxBytes_sq (bs : Bytes) (s : State) : (s.rxBytes bs).sq = s.sq := rfl

@[simp] theorem State.rxBytes_ex (bs : Bytes) (s : State) : (s.rxBytes bs).ex = s.ex := rfl

@[simp] theorem State.rxBytes_sa (bs : Bytes) (s : State) : (s.rxBytes bs).sa = s.sa := rfl

@[simp] theorem State.rxBytes_store (bs : Bytes) (s : State) : (s.rxBytes bs).store = s.store := rfl

@[simp] theorem State.rxBytes_time (bs : Bytes) (s : State) : (s.rxBytes bs).time = s.time := rfl

@[simp] theorem State.rxBytes_serial (bs : Bytes) (s : State) : (s.rxBytes bs).serial = s.serial := rfl

@[simp] theorem State.rxBytes_pending (bs : Bytes) (s : State) : (s.rxBytes bs).pending = s.pending := rfl

/-! ### The timeout started -/

@[simp] theorem State.startTimer_olu (s : State) : (s.startTimer).olu = s.olu := rfl

@[simp] theorem State.startTimer_fdm (s : State) : (s.startTimer).fdm = s.fdm := rfl

@[simp] theorem State.startTimer_ch (s : State) : (s.startTimer).ch = s.ch := rfl

@[simp] theorem State.startTimer_ce (s : State) : (s.startTimer).ce = s.ce := rfl

@[simp] theorem State.startTimer_fs (s : State) : (s.startTimer).fs = s.fs := rfl

@[simp] theorem State.startTimer_sq (s : State) : (s.startTimer).sq = s.sq := rfl

@[simp] theorem State.startTimer_sa (s : State) : (s.startTimer).sa = s.sa := rfl

@[simp] theorem State.startTimer_store (s : State) : (s.startTimer).store = s.store := rfl

@[simp] theorem State.startTimer_time (s : State) : (s.startTimer).time = s.time := rfl

@[simp] theorem State.startTimer_serial (s : State) : (s.startTimer).serial = s.serial := rfl

@[simp] theorem State.startTimer_pending (s : State) : (s.startTimer).pending = s.pending := rfl

@[simp] theorem State.setCh_ch_same (c : Fin 4) (x : Channel) (s : State) : (s.setCh c x).ch[c] = x := by
  simp [State.setCh]

theorem State.setCh_ch_other (c d : Fin 4) (x : Channel) (s : State) (h : d ≠ c) : (s.setCh c x).ch[d] = s.ch[d] :=
  setAt_other s.ch c d x h

@[simp] theorem State.setCh_ch (c : Fin 4) (x : Channel) (s : State) : (s.setCh c x).ch = setAt s.ch c x := rfl

@[simp] theorem State.settle_olu (s : State) : s.settle.olu = s.olu.transmit := rfl

@[simp] theorem State.post_olu (n : Notice) (s : State) : (s.post n).olu = s.olu.post n := rfl

@[simp] theorem State.inHand_olu (h : Head) (s : State) : (s.inHand h).olu = { s.olu with inHand := some h } := rfl

/-! ### An answer formed (by its cases) -/

@[simp] theorem State.answer_fdm (r : Reply) (s : State) : (s.answer r).fdm = s.fdm := by
  unfold State.answer; split <;> (try split) <;> rfl

@[simp] theorem State.answer_ch (r : Reply) (s : State) : (s.answer r).ch = s.ch := by
  unfold State.answer; split <;> (try split) <;> rfl

@[simp] theorem State.answer_ce (r : Reply) (s : State) : (s.answer r).ce = s.ce := by
  unfold State.answer; split <;> (try split) <;> rfl

@[simp] theorem State.answer_fs (r : Reply) (s : State) : (s.answer r).fs = s.fs := by
  unfold State.answer; split <;> (try split) <;> rfl

@[simp] theorem State.answer_sq (r : Reply) (s : State) : (s.answer r).sq = s.sq := by
  unfold State.answer; split <;> (try split) <;> rfl

@[simp] theorem State.answer_ex (r : Reply) (s : State) : (s.answer r).ex = s.ex := by
  unfold State.answer; split <;> (try split) <;> rfl

@[simp] theorem State.answer_sa (r : Reply) (s : State) : (s.answer r).sa = s.sa := by
  unfold State.answer; split <;> (try split) <;> rfl

@[simp] theorem State.answer_store (r : Reply) (s : State) : (s.answer r).store = s.store := by
  unfold State.answer; split <;> (try split) <;> rfl

@[simp] theorem State.answer_time (r : Reply) (s : State) : (s.answer r).time = s.time := by
  unfold State.answer; split <;> (try split) <;> rfl

@[simp] theorem State.answer_serial (r : Reply) (s : State) : (s.answer r).serial = s.serial := by
  unfold State.answer; split <;> (try split) <;> rfl

@[simp] theorem State.answer_pending (r : Reply) (s : State) : (s.answer r).pending = s.pending := by
  unfold State.answer; split <;> (try split) <;> rfl

@[simp] theorem State.answered_fdm (k t g : Byte) (r : Reply) (s : State) : (s.answered k t g r).fdm = s.fdm := by
  simp [State.answered]

@[simp] theorem State.answered_ch (k t g : Byte) (r : Reply) (s : State) : (s.answered k t g r).ch = s.ch := by
  simp [State.answered]

@[simp] theorem State.answered_ce (k t g : Byte) (r : Reply) (s : State) : (s.answered k t g r).ce = s.ce := by
  simp [State.answered]

@[simp] theorem State.answered_fs (k t g : Byte) (r : Reply) (s : State) : (s.answered k t g r).fs = s.fs := by
  simp [State.answered]

@[simp] theorem State.answered_sq (k t g : Byte) (r : Reply) (s : State) : (s.answered k t g r).sq = s.sq := by
  simp [State.answered]

@[simp] theorem State.answered_ex (k t g : Byte) (r : Reply) (s : State) : (s.answered k t g r).ex = s.ex := by
  simp [State.answered]

@[simp] theorem State.answered_sa (k t g : Byte) (r : Reply) (s : State) : (s.answered k t g r).sa = s.sa := by
  simp [State.answered]

@[simp] theorem State.answered_store (k t g : Byte) (r : Reply) (s : State) : (s.answered k t g r).store = s.store := by
  simp [State.answered]

@[simp] theorem State.answered_time (k t g : Byte) (r : Reply) (s : State) : (s.answered k t g r).time = s.time := by
  simp [State.answered]

@[simp] theorem State.answered_serial (k t g : Byte) (r : Reply) (s : State) : (s.answered k t g r).serial = s.serial := by
  simp [State.answered]

@[simp] theorem State.answered_pending (k t g : Byte) (r : Reply) (s : State) : (s.answered k t g r).pending = s.pending := by
  simp [State.answered]

/-! ### Notices posted one after another -/

@[simp] theorem State.postAll_fdm (ns : List Notice) (s : State) : (s.postAll ns).fdm = s.fdm := by
  induction ns generalizing s with
  | nil => rfl
  | cons n ns ih => exact (ih (s.post n)).trans rfl

@[simp] theorem State.postAll_ch (ns : List Notice) (s : State) : (s.postAll ns).ch = s.ch := by
  induction ns generalizing s with
  | nil => rfl
  | cons n ns ih => exact (ih (s.post n)).trans rfl

@[simp] theorem State.postAll_ce (ns : List Notice) (s : State) : (s.postAll ns).ce = s.ce := by
  induction ns generalizing s with
  | nil => rfl
  | cons n ns ih => exact (ih (s.post n)).trans rfl

@[simp] theorem State.postAll_fs (ns : List Notice) (s : State) : (s.postAll ns).fs = s.fs := by
  induction ns generalizing s with
  | nil => rfl
  | cons n ns ih => exact (ih (s.post n)).trans rfl

@[simp] theorem State.postAll_sq (ns : List Notice) (s : State) : (s.postAll ns).sq = s.sq := by
  induction ns generalizing s with
  | nil => rfl
  | cons n ns ih => exact (ih (s.post n)).trans rfl

@[simp] theorem State.postAll_ex (ns : List Notice) (s : State) : (s.postAll ns).ex = s.ex := by
  induction ns generalizing s with
  | nil => rfl
  | cons n ns ih => exact (ih (s.post n)).trans rfl

@[simp] theorem State.postAll_sa (ns : List Notice) (s : State) : (s.postAll ns).sa = s.sa := by
  induction ns generalizing s with
  | nil => rfl
  | cons n ns ih => exact (ih (s.post n)).trans rfl

@[simp] theorem State.postAll_store (ns : List Notice) (s : State) : (s.postAll ns).store = s.store := by
  induction ns generalizing s with
  | nil => rfl
  | cons n ns ih => exact (ih (s.post n)).trans rfl

@[simp] theorem State.postAll_time (ns : List Notice) (s : State) : (s.postAll ns).time = s.time := by
  induction ns generalizing s with
  | nil => rfl
  | cons n ns ih => exact (ih (s.post n)).trans rfl

@[simp] theorem State.postAll_serial (ns : List Notice) (s : State) : (s.postAll ns).serial = s.serial := by
  induction ns generalizing s with
  | nil => rfl
  | cons n ns ih => exact (ih (s.post n)).trans rfl

@[simp] theorem State.postAll_pending (ns : List Notice) (s : State) : (s.postAll ns).pending = s.pending := by
  induction ns generalizing s with
  | nil => rfl
  | cons n ns ih => exact (ih (s.post n)).trans rfl

/-! ### The order link unit under a post and under the transmitter's choice -/

@[simp] theorem Olu.post_phase (n : Notice) (o : Olu) : (o.post n).phase = o.phase := by
  unfold Olu.post; split <;> rfl

@[simp] theorem Olu.post_resetLow (n : Notice) (o : Olu) : (o.post n).resetLow = o.resetLow := by
  unfold Olu.post; split <;> rfl

@[simp] theorem Olu.post_record (n : Notice) (o : Olu) : (o.post n).record = o.record := by
  unfold Olu.post; split <;> rfl

@[simp] theorem Olu.post_receiver (n : Notice) (o : Olu) : (o.post n).receiver = o.receiver := by
  unfold Olu.post; split <;> rfl

@[simp] theorem Olu.post_frames (n : Notice) (o : Olu) : (o.post n).frames = o.frames := by
  unfold Olu.post; split <;> rfl

@[simp] theorem Olu.post_inHand (n : Notice) (o : Olu) : (o.post n).inHand = o.inHand := by
  unfold Olu.post; split <;> rfl

@[simp] theorem Olu.post_answerSlot (n : Notice) (o : Olu) : (o.post n).answerSlot = o.answerSlot := by
  unfold Olu.post; split <;> rfl

@[simp] theorem Olu.post_sending (n : Notice) (o : Olu) : (o.post n).sending = o.sending := by
  unfold Olu.post; split <;> rfl

@[simp] theorem Olu.post_resetDue (n : Notice) (o : Olu) : (o.post n).resetDue = o.resetDue := by
  unfold Olu.post; split <;> rfl

@[simp] theorem Olu.post_pulse (n : Notice) (o : Olu) : (o.post n).pulse = o.pulse := by
  unfold Olu.post; split <;> rfl

@[simp] theorem Olu.transmit_phase (o : Olu) : o.transmit.phase = o.phase := by
  unfold Olu.transmit; split <;> (try split) <;> (try split) <;> rfl

@[simp] theorem Olu.transmit_resetLow (o : Olu) : o.transmit.resetLow = o.resetLow := by
  unfold Olu.transmit; split <;> (try split) <;> (try split) <;> rfl

@[simp] theorem Olu.transmit_record (o : Olu) : o.transmit.record = o.record := by
  unfold Olu.transmit; split <;> (try split) <;> (try split) <;> rfl

@[simp] theorem Olu.transmit_receiver (o : Olu) : o.transmit.receiver = o.receiver := by
  unfold Olu.transmit; split <;> (try split) <;> (try split) <;> rfl

@[simp] theorem Olu.transmit_frames (o : Olu) : o.transmit.frames = o.frames := by
  unfold Olu.transmit; split <;> (try split) <;> (try split) <;> rfl

@[simp] theorem Olu.transmit_inHand (o : Olu) : o.transmit.inHand = o.inHand := by
  unfold Olu.transmit; split <;> (try split) <;> (try split) <;> rfl

@[simp] theorem Olu.transmit_resetDue (o : Olu) : o.transmit.resetDue = o.resetDue := by
  unfold Olu.transmit; split <;> (try split) <;> (try split) <;> rfl

/-- A return whose sending begins has sent no byte: the count stays as it stood while the transmitter was free. -/
@[simp] theorem Olu.transmit_sent (o : Olu) : o.transmit.sent = o.sent := by
  unfold Olu.transmit; split <;> (try split) <;> (try split) <;> rfl

@[simp] theorem Olu.transmit_pulse (o : Olu) : o.transmit.pulse = o.pulse := by
  unfold Olu.transmit; split <;> (try split) <;> (try split) <;> rfl

end Sys2Proof.Machine
end

