-- ==== Sys2Proof/Laws/Compose.lean ====
section
/-! SUPPORT. The composition engine's reading: what one act of it can do, and that what every act keeps is kept by a step of the
engine and by its reading on. -/

namespace Sys2Proof.Machine

/-! ### A unit read, and the line-start test passed -/

@[simp] theorem Composition.take_channel (c : Composition) (r : ReadUnit) : (c.take r).channel = c.channel := rfl
@[simp] theorem Composition.take_slot (c : Composition) (r : ReadUnit) : (c.take r).slot = c.slot := rfl
@[simp] theorem Composition.take_spanLen (c : Composition) (r : ReadUnit) : (c.take r).spanLen = c.spanLen := rfl
@[simp] theorem Composition.take_ctx (c : Composition) (r : ReadUnit) : (c.take r).ctx = c.ctx := rfl
@[simp] theorem Composition.take_carry (c : Composition) (r : ReadUnit) : (c.take r).carry = c.carry := rfl
@[simp] theorem Composition.take_lineSetw (c : Composition) (r : ReadUnit) : (c.take r).lineSetw = c.lineSetw := rfl
@[simp] theorem Composition.take_startClamped (c : Composition) (r : ReadUnit) : (c.take r).startClamped = c.startClamped := rfl
@[simp] theorem Composition.take_startSubst (c : Composition) (r : ReadUnit) : (c.take r).startSubst = c.startSubst := rfl
@[simp] theorem Composition.take_used (c : Composition) (r : ReadUnit) : (c.take r).used = c.used := rfl
@[simp] theorem Composition.take_started (c : Composition) (r : ReadUnit) : (c.take r).started = c.started := rfl
@[simp] theorem Composition.take_discard (c : Composition) (r : ReadUnit) : (c.take r).discard = c.discard := rfl
@[simp] theorem Composition.take_read (c : Composition) (r : ReadUnit) : (c.take r).read = c.read ++ [r] := rfl
@[simp] theorem Composition.take_work (c : Composition) (r : ReadUnit) : (c.take r).work = r.work := rfl
@[simp] theorem Composition.startFace_channel (c : Composition) (x : Drawn) (b : Bool) : (c.startFace x b).channel = c.channel := rfl
@[simp] theorem Composition.startFace_slot (c : Composition) (x : Drawn) (b : Bool) : (c.startFace x b).slot = c.slot := rfl
@[simp] theorem Composition.startFace_spanLen (c : Composition) (x : Drawn) (b : Bool) : (c.startFace x b).spanLen = c.spanLen := rfl
@[simp] theorem Composition.startFace_ctx (c : Composition) (x : Drawn) (b : Bool) : (c.startFace x b).ctx = c.ctx := rfl
@[simp] theorem Composition.startFace_carry (c : Composition) (x : Drawn) (b : Bool) : (c.startFace x b).carry = c.carry := rfl
@[simp] theorem Composition.startFace_lineSetw (c : Composition) (x : Drawn) (b : Bool) : (c.startFace x b).lineSetw = c.lineSetw := rfl
@[simp] theorem Composition.startFace_startClamped (c : Composition) (x : Drawn) (b : Bool) : (c.startFace x b).startClamped = c.startClamped := rfl
@[simp] theorem Composition.startFace_run (c : Composition) (x : Drawn) (b : Bool) : (c.startFace x b).run = c.run := rfl
@[simp] theorem Composition.startFace_read (c : Composition) (x : Drawn) (b : Bool) : (c.startFace x b).read = c.read := rfl
@[simp] theorem Composition.startFace_used (c : Composition) (x : Drawn) (b : Bool) : (c.startFace x b).used = c.used := rfl
@[simp] theorem Composition.startFace_discard (c : Composition) (x : Drawn) (b : Bool) : (c.startFace x b).discard = c.discard := rfl
@[simp] theorem Composition.startFace_started (c : Composition) (x : Drawn) (b : Bool) : (c.startFace x b).started = true := rfl
@[simp] theorem Composition.startFace_drawn (c : Composition) (x : Drawn) (b : Bool) : (c.startFace x b).work.drawn = x := rfl

/-! ### A draw (R27, R78) -/

theorem State.draw_held {c : Composition} {p : Fin 8} {s : State} (h : p ∈ c.used) :
    s.draw c p = { s with ce := { s.ce with comp := some c } } := by simp [State.draw, h]

theorem State.draw_first {c : Composition} {p : Fin 8} {s : State} (h : p ∉ c.used) :
    s.draw c p =
      { s with fdm := s.fdm.incRef p, ce := { s.ce with comp := some { c with used := c.used ++ [p] } } } := by simp [State.draw, h]

/-! ### One act of the engine -/

/-- R27, R37, R77: all that one act can do. It is the line-start face test, passed; or one unit read, which draws on no position, or
on the position of the face drawn on after it. -/
theorem State.readOne_cases {s t : State} (h : s.readOne = some t) :
    ∃ c, s.ce.comp = some c ∧ c.discard = false ∧ c.decided s.metrics = none ∧
      ((∃ x subst, c.started = false ∧ s.fdm.testFace c.work.face c.ctx.fallback = .ok (x, subst) ∧
          t = { s with ce := { s.ce with comp := some (c.startFace x subst) } }) ∨
        (∃ b r, c.started = true ∧ s.nextUnit c = some b ∧ readUnit s.fdm c.ctx.fallback c.work c.run b = .ok r ∧
          ((c.drawsAt s.metrics b.unit = false ∧ t = { s with ce := { s.ce with comp := some (c.take r) } }) ∨
            (c.drawsAt s.metrics b.unit = true ∧ s.canDraw c r.work.drawn.pos = true ∧
              t = s.draw (c.take r) r.work.drawn.pos)))) := by
  unfold State.readOne at h
  split at h
  · cases h
  · next c hc =>
    split at h
    · cases h
    · next hd =>
      have hd' : c.discard = false ∧ c.decided s.metrics = none := by
        constructor
        · simpa using fun e => hd (Or.inl e)
        · cases hx : c.decided s.metrics with
          | none => rfl
          | some e => exact absurd (Or.inr (by simp [hx])) hd
      refine ⟨c, hc, hd'.1, hd'.2, ?_⟩
      split at h
      · next hs =>
        split at h
        · cases h
        · next x subst hf => exact .inl ⟨x, subst, hs, hf, (Option.some.inj h).symm⟩
      · next hs =>
        have hs' : c.started = true := by simpa using hs
        split at h
        · cases h
        · next b hb =>
          split at h
          · cases h
          · next r hr =>
            refine .inr ⟨b, r, hs', hb, hr, ?_⟩
            split at h
            · next hw => exact .inl ⟨hw, (Option.some.inj h).symm⟩
            · next hw =>
              split at h
              · next hp => exact .inr ⟨by simpa using hw, hp, (Option.some.inj h).symm⟩
              · cases h

/-- One act changes the composition record and, at a first draw, one position's count: nothing else. -/
theorem State.readOne_frame {s t : State} (h : s.readOne = some t) :
    t = { s with fdm := t.fdm, ce := { s.ce with comp := t.ce.comp } } ∧ (t.fdm = s.fdm ∨ ∃ p, t.fdm = s.fdm.incRef p) := by
  obtain ⟨c, -, -, -, ⟨x, subst, -, -, rfl⟩ | ⟨b, r, -, -, -, ⟨-, rfl⟩ | ⟨-, -, rfl⟩⟩⟩ := s.readOne_cases h
  · exact ⟨rfl, .inl rfl⟩
  · exact ⟨rfl, .inl rfl⟩
  · by_cases hp : r.work.drawn.pos ∈ (c.take r).used
    · rw [State.draw_held hp]; exact ⟨rfl, .inl rfl⟩
    · rw [State.draw_first hp]; exact ⟨rfl, .inr ⟨_, rfl⟩⟩

/-! ### The engine goes on -/

/-- What every act keeps is kept while the engine goes on. -/
theorem State.readWhile_keeps {P : State → Prop} (step : ∀ a b : State, P a → a.readOne = some b → P b) (go : State → Bool) :
    ∀ (n : Nat) (s : State), P s → P (s.readWhile go n) := by
  intro n
  induction n with
  | zero => exact fun s h => h
  | succ n ih =>
    intro s h
    unfold State.readWhile
    split
    · cases hr : s.readOne with
      | none => exact h
      | some t => exact ih t (step s t h hr)
    · exact h

/-- What every act keeps is kept by a step of the engine. -/
theorem State.readNext_keeps {P : State → Prop} (step : ∀ a b : State, P a → a.readOne = some b → P b) {s : State} (h : P s) :
    P s.readNext := by
  unfold State.readNext
  cases hr : s.readOne with
  | none => exact h
  | some t => exact State.readWhile_keeps step _ _ t (step s t h hr)

/-- What every act keeps is kept by reading on. -/
theorem State.readOn_keeps {P : State → Prop} (step : ∀ a b : State, P a → a.readOne = some b → P b) {s : State} (h : P s) :
    P s.readOn :=
  State.readWhile_keeps step _ _ s h

/-- What a number of acts changes of s: the composition record and the positions' counts, and nothing else. -/
def State.readsFrom (s t : State) : Prop := t = { s with fdm := t.fdm, ce := { s.ce with comp := t.ce.comp } }

theorem State.readOne_readsFrom (s a b : State) (ha : s.readsFrom a) (hr : a.readOne = some b) : s.readsFrom b := by
  unfold State.readsFrom at *
  rw [(a.readOne_frame hr).1, ha]

/-- Reading on changes the composition record and the positions' counts, and nothing else. -/
theorem State.readOn_frame (s : State) :
    s.readOn = { s with fdm := s.readOn.fdm, ce := { s.ce with comp := s.readOn.ce.comp } } :=
  State.readOn_keeps (P := s.readsFrom) s.readOne_readsFrom rfl

/-- So does a step of the engine. -/
theorem State.readNext_frame (s : State) :
    s.readNext = { s with fdm := s.readNext.fdm, ce := { s.ce with comp := s.readNext.ce.comp } } :=
  State.readNext_keeps (P := s.readsFrom) s.readOne_readsFrom rfl

@[simp] theorem State.readNext_sa (s : State) : s.readNext.sa = s.sa := by rw [s.readNext_frame]

@[simp] theorem State.readNext_serial (s : State) : s.readNext.serial = s.serial := by rw [s.readNext_frame]

end Sys2Proof.Machine
end

