-- ==== Sys2Proof/Laws/Fetch.lean ====
section
/-! SUPPORT. The fetch scheduler's report of fetches idle at a transfer's completion (R112, R128). -/

namespace Sys2Proof.Machine

/-- R112, R128: all that the report of fetches idle can do. -/
theorem State.idleReport_resumes (wasIdle : Bool) (s : State) : State.resumes wasIdle s (s.idleReport wasIdle) := by
  unfold State.resumes State.idleReport State.fetchesIdle Fs.claimAll
  dsimp only
  by_cases h1 : s.sq.state = .eraseSuspended
  · by_cases h2 : s.fs.isIdle = true
    · simp [h1, h2]
    · by_cases h3 : wasIdle = true
      · rw [if_neg (by simp [h1]), if_neg h2, if_pos h3, if_pos ⟨h3, h1, by simpa using h2⟩]
        split
        · exact .inr rfl
        · exact .inl rfl
      · simp [h1, h2, h3]
  · simp [h1]

end Sys2Proof.Machine
end

