-- ==== Sys2Proof/Laws/Link.lean ====
section
/-! SUPPORT. The order link's shared operations: what an order sent as one good frame does on a free link and behind another order,
what the transmitter does with an answer, and the lengths of fields and bodies. -/

namespace Sys2Proof.Machine

/-! ### Lengths -/

@[simp] theorem u8_length (n : Nat) : (u8 n).length = 1 := rfl
@[simp] theorem u16_length (n : Nat) : (u16 n).length = 2 := rfl
@[simp] theorem u32_length (n : Nat) : (u32 n).length = 4 := rfl

theorem flatMap_length_three {α : Type} (f : α → Bytes) (h : ∀ a, (f a).length = 3) (l : List α) :
    (l.flatMap f).length = 3 * l.length := by
  induction l with
  | nil => rfl
  | cons a l ih => simp [h, ih]; omega

/-- The body of an order whose form is good fits a frame (R168, R185). -/
theorem Order.body_length_le (o : Order) (h : o.formOk = true) : o.body.length ≤ 1536 := by
  cases o <;> simp_all [Order.body, Order.formOk] <;> omega

/-- The length of a return's frame is its body's and nine bytes more (section 11.2). -/
theorem Return.bytes_length (r : Return) : r.bytes.length = r.length := by simp [Return.bytes, Return.length, u16_length]; omega

/-! ### Bytes on the transmit pair (R176) -/

/-- While the transmitter is idle no byte is in progress. -/
theorem Olu.txByte_idle {o : Olu} (h : o.sending = none) : o.txByte = none := by simp [Olu.txByte, h]

/-- The byte in progress is the first that has not gone. -/
theorem Olu.txByte_some {o : Olu} {r : Return} (h : o.sending = some r) : o.txByte = r.bytes[o.sent]? := by simp [Olu.txByte, h]

/-- R176: all that the transmitter does while no command comes: nothing, where no byte before a return's last is in progress; or some
number of those bytes goes out, never the last, and nothing else changes but the serial number. -/
theorem State.linkSends_cases (s : State) :
    ((∀ r, s.olu.sending = some r → r.bytes.length ≤ s.olu.sent + 1) ∧ s.linkSends = s) ∨
      ∃ r n, s.olu.sending = some r ∧ s.olu.sent + n < r.bytes.length ∧
        s.linkSends = { s with olu := { s.olu with sent := s.olu.sent + n }, serial := s.serial + 1 } := by
  unfold State.linkSends
  cases hs : s.olu.sending with
  | none => exact .inl ⟨by simp, rfl⟩
  | some r =>
    by_cases h : s.olu.sent + 1 < r.length
    · obtain ⟨k, hk, e⟩ := gone_of_lt h (Config.linkPace s.serial)
      exact .inr ⟨r, k, rfl, r.bytes_length ▸ hk, by simp [h, e, hs]⟩
    · exact .inl ⟨fun q e => by cases e; rw [r.bytes_length]; omega, by simp [h]⟩

@[simp] theorem State.linkSends_fdm (s : State) : s.linkSends.fdm = s.fdm := by
  unfold State.linkSends; split <;> (try split) <;> rfl

@[simp] theorem State.linkSends_ch (s : State) : s.linkSends.ch = s.ch := by
  unfold State.linkSends; split <;> (try split) <;> rfl

@[simp] theorem State.linkSends_ce (s : State) : s.linkSends.ce = s.ce := by
  unfold State.linkSends; split <;> (try split) <;> rfl

@[simp] theorem State.linkSends_fs (s : State) : s.linkSends.fs = s.fs := by
  unfold State.linkSends; split <;> (try split) <;> rfl

@[simp] theorem State.linkSends_sq (s : State) : s.linkSends.sq = s.sq := by
  unfold State.linkSends; split <;> (try split) <;> rfl

@[simp] theorem State.linkSends_ex (s : State) : s.linkSends.ex = s.ex := by
  unfold State.linkSends; split <;> (try split) <;> rfl

@[simp] theorem State.linkSends_sa (s : State) : s.linkSends.sa = s.sa := by
  unfold State.linkSends; split <;> (try split) <;> rfl

@[simp] theorem State.linkSends_store (s : State) : s.linkSends.store = s.store := by
  unfold State.linkSends; split <;> (try split) <;> rfl

@[simp] theorem State.linkSends_time (s : State) : s.linkSends.time = s.time := by
  unfold State.linkSends; split <;> (try split) <;> rfl

@[simp] theorem State.linkSends_pending (s : State) : s.linkSends.pending = s.pending := by
  unfold State.linkSends; split <;> (try split) <;> rfl

/-! ### Orders on the link (R169, R172, R174) -/

theorem State.linkFree_storesOccupied {s : State} (h : s.linkFree) : s.olu.storesOccupied = 0 := by
  obtain ⟨_, h2, h3, h4⟩ := h
  simp [Olu.storesOccupied, h2, h3, h4]

theorem State.canTake_of_linkFree {s : State} (h : s.linkFree) {o : Order} (hb : o.body.length ≤ 1536) : s.canTake o = true := by
  have h0 := State.linkFree_storesOccupied h
  obtain ⟨h1, h2, h3, h4⟩ := h
  simp [State.canTake, Olu.storeFree, h0, h1, h2, hb]

/-- An order sent on a free link is taken by the dispatcher at once. -/
theorem State.giveOrder_free {s : State} (h : s.linkFree) {o : Order} (hb : o.body.length ≤ 1536) (tag target : Byte) :
    s.giveOrder tag target o = s.takeOrder ⟨o.kind, tag, target⟩ o := by
  have h0 := State.canTake_of_linkFree h hb
  obtain ⟨h1, h2, h3, h4⟩ := h
  simp [State.giveOrder, h0, h3, h4]

/-- An order that passes the link's tests is acted on by its owning block, whose answer goes into the answer slot. -/
theorem State.takeOrder_ok (s : State) (hd : Head) (o : Order) (h1 : o.formOk = true) (h2 : o.targetOk hd.target = true) :
    s.takeOrder hd o = (o.act hd.tag hd.target (s.inHand hd)).1.answer (o.act hd.tag hd.target (s.inHand hd)).2 := by
  simp [State.takeOrder, h1, h2]

/-- An order behind another waits in a frame store. -/
theorem State.giveOrder_waits {s : State} {o : Order} (h : s.canTake o = true) (hb : s.olu.inHand ≠ none ∨ s.olu.frames ≠ [])
    (tag target : Byte) :
    s.giveOrder tag target o =
      { s with olu := { s.olu with frames := s.olu.frames ++ [⟨o.kind, tag, target, o.body, true⟩] } } := by
  have : ¬ (s.olu.inHand = none ∧ s.olu.frames = []) := by tauto
  simp only [State.giveOrder, h, if_true, this, if_false]

/-! ### Notices (R177) -/

/-- A notice posted to a queue with room joins its tail. -/
theorem Olu.post_room {o : Olu} (h : o.notices.length < 32) (n : Notice) :
    o.post n = { o with notices := o.notices ++ [n] } := by
  simp [Olu.post, h]

/-- A notice posted to a full queue is dropped and counted. -/
theorem Olu.post_full {o : Olu} (h : 32 ≤ o.notices.length) (n : Notice) : o.post n = { o with lost := min 255 (o.lost + 1) } := by
  have : ¬ o.notices.length < 32 := by omega
  simp [Olu.post, this]

/-- The transmitter's choice never lengthens the notice queue. -/
theorem Olu.transmit_notices_le (o : Olu) : o.transmit.notices.length ≤ o.notices.length := by
  unfold Olu.transmit
  split
  · split
    · exact le_refl _
    · split
      · exact le_refl _
      · next n rest e => simp [e]
  · exact le_refl _

end Sys2Proof.Machine
end

