-- ==== Sys2Proof/Laws/Memory.lean ====
section
/-! SUPPORT. The store's bytes: what a read gives after a splice, and that every operation keeps the canonical form. -/

namespace Sys2Proof.Machine

/-! ### Listed cells -/

theorem cellsOf_mem (f : Nat → Byte) (n : Nat) : ∀ (a : Nat) (c : Host.Cell),
    c ∈ cellsOf f a n ↔ (a ≤ c.1 ∧ c.1 < a + n ∧ c.2 = f c.1 ∧ f c.1 ≠ 255) := by
  induction n with
  | zero => intro a c; simp [cellsOf]; omega
  | succ n ih =>
    intro a c
    by_cases h : f a = 255
    · simp only [cellsOf, h, if_true, ih]
      constructor
      · rintro ⟨h1, h2, h3⟩; exact ⟨by omega, by omega, h3⟩
      · rintro ⟨h1, h2, h3, h4⟩
        have : c.1 ≠ a := fun e => h4 (e ▸ h)
        exact ⟨by omega, by omega, h3, h4⟩
    · simp only [cellsOf, h, if_false, List.mem_cons, ih]
      constructor
      · rintro (rfl | ⟨h1, h2, h3⟩)
        · exact ⟨le_refl _, by simp, rfl, h⟩
        · exact ⟨by omega, by omega, h3⟩
      · rintro ⟨h1, h2, h3, h4⟩
        by_cases e : c.1 = a
        · left; obtain ⟨x, y⟩ := c; simp_all
        · right; exact ⟨by omega, by omega, h3, h4⟩

theorem cellsOf_rising (f : Nat → Byte) (n : Nat) : ∀ a, (cellsOf f a n).Pairwise (fun c d => c.1 < d.1) := by
  induction n with
  | zero => intro a; simp [cellsOf]
  | succ n ih =>
    intro a
    by_cases h : f a = 255
    · simpa [cellsOf, h] using ih (a + 1)
    · simp only [cellsOf, h, if_false, List.pairwise_cons]
      refine ⟨fun c hc => ?_, ih (a + 1)⟩
      have := (cellsOf_mem f n (a + 1) c).1 hc
      omega

/-! ### The canonical form -/

theorem Memory.wf_iff (m : List Host.Cell) :
    Memory.wf m = true ↔ m.Pairwise (fun a b => a.1 < b.1) ∧ ∀ c ∈ m, c.2 ≠ 255 := by
  simp [Memory.wf]

/-- A splice keeps the canonical form. -/
theorem Memory.wf_splice {m : List Host.Cell} (h : Memory.wf m = true) (a n : Nat) (f : Nat → Byte) :
    Memory.wf (spliceBytes m a n f) = true := by
  rw [Memory.wf_iff] at h ⊢
  obtain ⟨hp, hv⟩ := h
  constructor
  · unfold spliceBytes
    rw [List.pairwise_append, List.pairwise_append]
    refine ⟨⟨hp.filter _, cellsOf_rising f n a, ?_⟩, hp.filter _, ?_⟩
    · intro c hc d hd
      have h1 : c.1 < a := by simpa using (List.mem_filter.1 hc).2
      have h2 := (cellsOf_mem f n a d).1 hd
      omega
    · intro c hc d hd
      have h2 : a + n ≤ d.1 := by simpa using (List.mem_filter.1 hd).2
      rcases List.mem_append.1 hc with hc | hc
      · have h1 : c.1 < a := by simpa using (List.mem_filter.1 hc).2
        omega
      · have h1 := (cellsOf_mem f n a c).1 hc
        omega
  · intro c hc
    unfold spliceBytes at hc
    rcases List.mem_append.1 hc with hc | hc
    · rcases List.mem_append.1 hc with hc | hc
      · exact hv c (List.mem_filter.1 hc).1
      · obtain ⟨_, _, h3, h4⟩ := (cellsOf_mem f n a c).1 hc
        rw [h3]; exact h4
    · exact hv c (List.mem_filter.1 hc).1

/-- A program line written keeps the canonical form. -/
theorem Memory.wf_writeLine {s : State} (h : Memory.wf s.store = true) (l : ProgLine) :
    Memory.wf (s.writeLine l).store = true := Memory.wf_splice h _ _ _

/-- A block erased keeps the canonical form. -/
theorem Memory.wf_blankBlock {s : State} (h : Memory.wf s.store = true) (b : Nat) :
    Memory.wf (s.blankBlock b).store = true := Memory.wf_splice h _ _ _

/-- Bytes left undefined keep the canonical form. -/
theorem Memory.wf_undefine {s : State} (h : Memory.wf s.store = true) (a n : Nat) :
    Memory.wf (s.undefine a n).store = true := Memory.wf_splice h _ _ _

/-- A reset keeps the canonical form. -/
theorem Memory.wf_resetTo {s : State} (h : Memory.wf s.store = true) (r : ResetRecord) (p : Phase) :
    Memory.wf (s.resetTo r p).store = true := by
  show Memory.wf s.losesTarget.store = true
  unfold State.losesTarget
  split
  · exact h
  · exact Memory.wf_undefine h _ _
  · exact Memory.wf_undefine h _ _

/-- A STORE_ABORT keeps the canonical form. -/
theorem Memory.wf_stopStore {s : State} (h : Memory.wf s.store = true) : Memory.wf s.stopStore.store = true := by
  unfold State.stopStore
  split
  · split
    · exact Memory.wf_undefine h _ _
    · exact h
  · split
    · exact Memory.wf_undefine h _ _
    · exact h
  · exact Memory.wf_undefine h _ _
  · exact h

/-- The store after reset is in canonical form. -/
theorem Memory.wf_reset : Memory.wf State.reset.store = true := by decide

/-! ### Reads -/

theorem readByte_of_mem {m : List Host.Cell} (h : Memory.wf m = true) {c : Host.Cell} (hc : c ∈ m) : readByte m c.1 = c.2 := by
  have hp := ((Memory.wf_iff m).1 h).1
  unfold readByte
  have : m.find? (fun d => d.1 == c.1) = some c := by
    clear h
    induction m with
    | nil => cases hc
    | cons d m ih =>
      rw [List.pairwise_cons] at hp
      by_cases e : d.1 = c.1
      · rcases List.mem_cons.1 hc with rfl | hc
        · simp
        · have := hp.1 c hc; omega
      · rcases List.mem_cons.1 hc with rfl | hc
        · exact absurd rfl e
        · simpa [e] using ih hc hp.2
  rw [this]

theorem find_filter_other (m : List Host.Cell) (q : Host.Cell → Bool) (x : Nat) (h : ∀ c : Host.Cell, c.1 = x → q c = false) :
    (m.filter q).find? (fun c => c.1 == x) = none := by
  rw [List.find?_eq_none]
  intro c hc
  have := (List.mem_filter.1 hc).2
  intro e
  have e' : c.1 = x := by simpa using e
  rw [h c e'] at this
  cases this

theorem find_filter_same (m : List Host.Cell) (q : Host.Cell → Bool) (x : Nat) (h : ∀ c : Host.Cell, c.1 = x → q c = true) :
    (m.filter q).find? (fun c => c.1 == x) = m.find? (fun c => c.1 == x) := by
  induction m with
  | nil => rfl
  | cons c m ih =>
    by_cases e : c.1 = x
    · simp [h c e, e]
    · by_cases hq : q c = true
      · simp [hq, e, ih]
      · simp [hq, e, ih]

/-- A read outside a splice gives what it gave before. -/
theorem readByte_splice_out (m : List Host.Cell) (a n : Nat) (f : Nat → Byte) (x : Nat) (h : x < a ∨ a + n ≤ x) :
    readByte (spliceBytes m a n f) x = readByte m x := by
  have hc : (cellsOf f a n).find? (fun c => c.1 == x) = none := by
    rw [List.find?_eq_none]
    intro c hc
    have := (cellsOf_mem f n a c).1 hc
    simp only [beq_iff_eq]
    omega
  unfold readByte spliceBytes
  rw [List.find?_append, List.find?_append, hc]
  rcases h with h | h
  · rw [find_filter_same m (fun c => decide (c.1 < a)) x (by intro c e; simp [e, h]),
      find_filter_other m (fun c => decide (a + n ≤ c.1)) x (by intro c e; simp [e]; omega)]
    simp
  · rw [find_filter_other m (fun c => decide (c.1 < a)) x (by intro c e; simp [e]; omega),
      find_filter_same m (fun c => decide (a + n ≤ c.1)) x (by intro c e; simp [e, h])]
    simp

/-- A read inside a splice gives the spliced byte. -/
theorem readByte_splice_in (m : List Host.Cell) (a n : Nat) (f : Nat → Byte) (x : Nat) (h1 : a ≤ x) (h2 : x < a + n) :
    readByte (spliceBytes m a n f) x = f x := by
  unfold readByte spliceBytes
  rw [List.find?_append, List.find?_append,
    find_filter_other m (fun c => decide (c.1 < a)) x (by intro c e; simp [e]; omega),
    find_filter_other m (fun c => decide (a + n ≤ c.1)) x (by intro c e; simp [e]; omega)]
  simp only [Option.none_or, Option.or_none]
  by_cases hf : f x = 255
  · have : (cellsOf f a n).find? (fun c => c.1 == x) = none := by
      rw [List.find?_eq_none]
      intro c hc e
      have e' : c.1 = x := by simpa using e
      exact ((cellsOf_mem f n a c).1 hc).2.2.2 (e' ▸ hf)
    rw [this, hf]
  · cases hc : (cellsOf f a n).find? (fun c => c.1 == x) with
    | none =>
      rw [List.find?_eq_none] at hc
      have := hc (x, f x) ((cellsOf_mem f n a (x, f x)).2 ⟨h1, h2, rfl, hf⟩)
      simp at this
    | some c =>
      have e : c.1 = x := by simpa using List.find?_some hc
      have := (cellsOf_mem f n a c).1 (List.mem_of_find?_eq_some hc)
      simp only
      rw [this.2.2.1, e]

/-- A block erased reads 255 at every address of it. -/
theorem readByte_blankBlock_in (s : State) (b x : Nat) (h1 : 262144 * b ≤ x) (h2 : x < 262144 * b + 262144) :
    readByte (s.blankBlock b).store x = 255 := readByte_splice_in _ _ _ _ _ h1 h2

/-- A block erased leaves every other address as it was. -/
theorem readByte_blankBlock_out (s : State) (b x : Nat) (h : x < 262144 * b ∨ 262144 * b + 262144 ≤ x) :
    readByte (s.blankBlock b).store x = readByte s.store x := readByte_splice_out _ _ _ _ _ h

/-- A program line written reads as its data. -/
theorem readByte_writeLine_in (s : State) (l : ProgLine) (x : Nat) (h1 : 4096 * l.page + l.offset ≤ x)
    (h2 : x < 4096 * l.page + l.offset + 256) :
    readByte (s.writeLine l).store x = l.data.getD (x - (4096 * l.page + l.offset)) 255 := readByte_splice_in _ _ _ _ _ h1 h2

/-- A program line written leaves every other address as it was. -/
theorem readByte_writeLine_out (s : State) (l : ProgLine) (x : Nat)
    (h : x < 4096 * l.page + l.offset ∨ 4096 * l.page + l.offset + 256 ≤ x) :
    readByte (s.writeLine l).store x = readByte s.store x := readByte_splice_out _ _ _ _ _ h

theorem readBytes_length (m : List Host.Cell) (n : Nat) : ∀ a, (readBytes m a n).length = n := by
  induction n with
  | zero => intro a; rfl
  | succ n ih => intro a; simp [readBytes, ih]

/-- The i-th byte of a run read is the byte at its address. -/
theorem readBytes_get (m : List Host.Cell) (n : Nat) : ∀ (a i : Nat) (_ : i < n),
    (readBytes m a n)[i]? = some (readByte m (a + i)) := by
  induction n with
  | zero => intro a i h; omega
  | succ n ih =>
    intro a i h
    cases i with
    | zero => simp [readBytes]
    | succ i =>
      have := ih (a + 1) i (by omega)
      simp only [readBytes, List.getElem?_cons_succ, this]
      congr 2; omega

end Sys2Proof.Machine
end

