-- ==== Sys2Proof/Laws/Mounting.lean ====
section
/-! SUPPORT. The mount loader: what its next fetches are, and when it stops making them (R33, R108, R109); what the end of
references (R27) and the use of positions (R28) do to the mount table. -/

namespace Sys2Proof.Machine

/-- R108: a request made raises by one the requests of its requester that are outstanding. -/
theorem Fs.outstanding_request (f : Fs) (r : FetchReq) : (f.request r).outstanding r.requester = f.outstanding r.requester + 1 := by
  unfold Fs.request
  split <;> simp [Fs.outstanding, List.filter_append] <;> omega

/-- R33: the loader requests the section's pages in increasing order from the first not yet issued, never more than the section has
nor than four outstanding; and it stops only when all are issued, four are outstanding or one is held, or after n requests. -/
theorem pumpMount_pages : ∀ (n : Nat) (d : Fdm) (f : Fs) (l : Load) (len : Nat), d.load = some l → l.length = some len →
    ∃ k, let g := (List.range' l.issued k).foldl (fun x i => x.request (sectionFetch d.dir[l.face].base len i)) f
      pumpMount n d f = ({ d with load := some { l with issued := l.issued + k } }, g) ∧
        (k ≠ 0 → l.issued + k ≤ pagesOf len ∧ g.outstanding .mount ≤ 4) ∧
        (pagesOf len ≤ l.issued + k ∨ 4 ≤ g.outstanding .mount ∨ g.holdsFor .mount = true ∨
          f.outstanding .mount + n ≤ g.outstanding .mount) := by
  intro n
  induction n with
  | zero => exact fun d f l len hd hl => ⟨0, by simp [pumpMount, ← hd], by simp, by simp⟩
  | succ n ih =>
    intro d f l len hd hl
    unfold pumpMount
    simp only [hd, hl]
    split
    · next h =>
      obtain ⟨k, e, h1, h2⟩ := ih { d with load := some { l with issued := l.issued + 1 } }
        (f.request (sectionFetch d.dir[l.face].base len l.issued)) { l with issued := l.issued + 1 } len rfl hl
      have ho : (f.request (sectionFetch d.dir[l.face].base len l.issued)).outstanding .mount = f.outstanding .mount + 1 :=
        f.outstanding_request _
      refine ⟨k + 1, ?_⟩
      simp only [List.range'_succ, List.foldl_cons]
      refine ⟨?_, fun _ => ?_, ?_⟩
      · rw [show some len = l.length from hl.symm, e, Nat.add_assoc, Nat.add_comm 1 k]
      · by_cases hk : k = 0
        · subst hk; simp only [List.range'_zero, List.foldl_nil] at *; omega
        · have := h1 hk
          simp only at this
          exact ⟨by omega, this.2⟩
      · simp only at h2
        rw [ho] at h2
        rcases h2 with h2 | h2 | h2 | h2
        · exact .inl (by omega)
        · exact .inr (.inl h2)
        · exact .inr (.inr (.inl h2))
        · exact .inr (.inr (.inr (by omega)))
    · next h =>
      refine ⟨0, ?_, by simp, ?_⟩
      · show (d, f) = ({ d with load := some { l with length := some len, issued := l.issued } }, f)
        rw [show some { l with length := some len, issued := l.issued } = d.load by rw [hd, ← hl]]
      simp only [List.range'_zero, List.foldl_nil]
      by_cases h1 : l.issued < pagesOf len
      · by_cases h2 : f.outstanding .mount < 4
        · exact .inr (.inr (.inl (by simpa using fun e => h ⟨h1, h2, e⟩)))
        · exact .inr (.inl (by omega))
      · exact .inl (by omega)

/-- R33: the loader's next fetches change the load in progress and the fetch scheduler alone, and leave no page unissued while fewer
than four are outstanding and none is held. -/
theorem State.pumpLoader_pages (s : State) {l : Load} {len : Nat} (hd : s.fdm.load = some l) (hl : l.length = some len) :
    ∃ k, let g := (List.range' l.issued k).foldl (fun x i => x.request (sectionFetch s.fdm.dir[l.face].base len i)) s.fs
      s.pumpLoader = { s with fdm := { s.fdm with load := some { l with issued := l.issued + k } }, fs := g } ∧
        (k ≠ 0 → l.issued + k ≤ pagesOf len ∧ g.outstanding .mount ≤ 4) ∧
        (pagesOf len ≤ l.issued + k ∨ 4 ≤ g.outstanding .mount ∨ g.holdsFor .mount = true) := by
  obtain ⟨k, e, h1, h2⟩ := pumpMount_pages 4 s.fdm s.fs l len hd hl
  refine ⟨k, ?_, h1, ?_⟩
  · simp only [State.pumpLoader, e]
  · rcases h2 with h | h | h | h
    · exact .inl h
    · exact .inr (.inl h)
    · exact .inr (.inr h)
    · exact .inr (.inl (by omega))

/-! ### References and recency (R27, R28) -/

/-- References that end together end in two parts as they do in one. -/
theorem Fdm.decRefs_append (ps qs : List (Fin 8)) (d : Fdm) :
    Fdm.decRefs (ps ++ qs) d = ((Fdm.decRefs qs (Fdm.decRefs ps d).1).1, (Fdm.decRefs ps d).2 ++ (Fdm.decRefs qs (Fdm.decRefs ps d).1).2) := by
  induction ps generalizing d with
  | nil => simp [Fdm.decRefs]
  | cons p ps ih => simp [Fdm.decRefs, ih]

/-- R21: a retirement changes no position but its own, and leaves the count of its own at 0 where it was 0. -/
theorem Fdm.retireFrom_pos (d : Fdm) (p x : Fin 8) :
    (x ≠ p → (d.retireFrom p).1.pos[x] = d.pos[x]) ∧ (d.pos[p].count = 0 → (d.retireFrom p).1.pos[p].count = 0) := by
  unfold Fdm.retireFrom
  cases d.pos[p].state.face with
  | none => simp
  | some f =>
    by_cases h : d.dir[f].state = .withdrawing
    · dsimp only
      rw [if_pos h]
      simp only [Fdm.undefineFace, Fdm.emptyPos, Fdm.setPos, setAt_get]
      exact ⟨fun hx => if_neg hx, fun _ => by rw [if_pos trivial]⟩
    · dsimp only
      rw [if_neg h]
      exact ⟨fun _ => rfl, id⟩

/-- R27: a reference that ends lowers its position's count by one, and no other position changes. -/
theorem Fdm.decRef_pos (d : Fdm) (p x : Fin 8) :
    (d.decRef p).1.pos[x].count = d.pos[x].count - (if x = p then 1 else 0) ∧ (x ≠ p → (d.decRef p).1.pos[x] = d.pos[x]) := by
  have hr := Fdm.retireFrom_pos (d.setPos p { d.pos[p] with count := d.pos[p].count - 1 }) p x
  unfold Fdm.decRef
  by_cases h : x = p
  · subst h
    dsimp only
    split
    · next h0 =>
      rw [hr.2 h0, if_pos rfl]
      simp only [Fdm.setPos, setAt_get, if_true] at h0
      exact ⟨h0.symm, fun hx => absurd rfl hx⟩
    · simp only [Fdm.setPos, setAt_get, if_true]
      exact ⟨trivial, fun hx => absurd rfl hx⟩
  · have hs : (d.setPos p { d.pos[p] with count := d.pos[p].count - 1 }).pos[x] = d.pos[x] := by
      simp only [Fdm.setPos, setAt_get, if_neg h]
    dsimp only
    rw [if_neg h, Nat.sub_zero]
    split
    · exact ⟨by rw [hr.1 h, hs], fun _ => by rw [hr.1 h, hs]⟩
    · exact ⟨by rw [hs], fun _ => hs⟩

/-- R27: references that end together lower each position's count by the times it is named, and change no other position. -/
theorem Fdm.decRefs_pos (x : Fin 8) : ∀ (ps : List (Fin 8)) (d : Fdm),
    (Fdm.decRefs ps d).1.pos[x].count = d.pos[x].count - ps.count x ∧ (x ∉ ps → (Fdm.decRefs ps d).1.pos[x] = d.pos[x]) := by
  intro ps
  induction ps with
  | nil => intro d; simp [Fdm.decRefs]
  | cons p ps ih =>
    intro d
    have h1 := ih (d.decRef p).1
    have h2 := d.decRef_pos p x
    simp only [Fdm.decRefs]
    refine ⟨?_, fun h => ?_⟩
    · rw [h1.1, h2.1, List.count_cons]
      by_cases h : x = p
      · subst h; simp only [beq_self_eq_true, if_true]; omega
      · simp only [if_neg h, beq_iff_eq, if_neg (Ne.symm h), Nat.sub_zero, Nat.add_zero]
    · simp only [List.mem_cons, not_or] at h
      rw [h1.2 h.2, h2.2 h.1]

/-- R28: positions touched one after another, each once, become the most recent in that order. -/
theorem Fdm.foldl_touch : ∀ (ps : List (Fin 8)) (d : Fdm), ps.Nodup →
    ps.foldl Fdm.touch d = { d with recency := d.recency.filter (fun p => decide (p ∉ ps)) ++ ps } := by
  intro ps
  induction ps with
  | nil => intro d _; simp
  | cons p ps ih =>
    intro d h
    rw [List.nodup_cons] at h
    rw [List.foldl_cons, ih _ h.2]
    simp only [Fdm.touch, List.filter_append, List.filter_filter, List.mem_cons, not_or, List.filter_cons, List.filter_nil]
    simp [h.1, Bool.and_comm]

end Sys2Proof.Machine
end

