-- ==== Sys2Proof/Laws/PerInstr.lean ====
section
/-! SUPPORT. One lemma for each command about its form as syntax: the frame of a well-formed order passes the order link's own tests
and fits a frame; a well-formed first byte of no return record is not that of a DONE or a FAULT. -/

namespace Sys2Proof.Laws.WellFormedBody

open Sys2Proof.Machine

/-- A well-formed order passes R173's form test, its target test, and R168's length limit; a well-formed event carries what can arrive
(R159). -/
def Statement (i : Instr) : Prop :=
  match orderOf i with
  | some (_, target, o) => i.wf = true → o.formOk = true ∧ o.targetOk target = true ∧ o.body.length ≤ 1536
  | none => i.wf = true → i ≠ .unknownReturnByte 0x71 ∧ i ≠ .unknownReturnByte 0x72

theorem of_order {i : Instr} {tag target : Byte} {o : Order} (h : orderOf i = some (tag, target, o)) : Statement i := by
  unfold Statement
  rw [h]
  intro w
  simp only [Instr.wf, h, Bool.and_eq_true] at w
  obtain ⟨⟨h1, h2⟩, _⟩ := w
  refine ⟨h1, ?_, Order.body_length_le o h1⟩
  unfold targetWf at h2
  unfold Order.targetOk
  cases hc : o.forChannel <;> simp_all

theorem of_event {i : Instr} (h : orderOf i = none) (h1 : i ≠ .unknownReturnByte 0x71) (h2 : i ≠ .unknownReturnByte 0x72) :
    Statement i := by
  unfold Statement
  rw [h]
  exact fun _ => ⟨h1, h2⟩

theorem copy (tag target : Byte) (units : List RawUnit) : Statement (.copy tag target units) := of_order rfl

theorem channelSet (tag target : Byte) (fields : List FieldEntry) : Statement (.channelSet tag target fields) := of_order rfl

theorem column (tag target : Byte) (top : BitVec 32) : Statement (.column tag target top) := of_order rfl

theorem cancel (tag target : Byte) : Statement (.cancel tag target) := of_order rfl

theorem release (tag target : Byte) : Statement (.release tag target) := of_order rfl

theorem channelQuery (tag target : Byte) : Statement (.channelQuery tag target) := of_order rfl

theorem faceDefine (tag target face : Byte) (base size : Word) : Statement (.faceDefine tag target face base size) := of_order rfl

theorem faceWithdraw (tag target face : Byte) : Statement (.faceWithdraw tag target face) := of_order rfl

theorem mapLock (tag target : Byte) : Statement (.mapLock tag target) := of_order rfl

theorem faceQuery (tag target face : Byte) : Statement (.faceQuery tag target face) := of_order rfl

theorem mount (tag target face : Byte) : Statement (.mount tag target face) := of_order rfl

theorem fetchSet (tag target : Byte) (fields : List FieldEntry) : Statement (.fetchSet tag target fields) := of_order rfl

theorem storeWrite (tag target : Byte) (page offset : Word) (data : Bytes) : Statement (.storeWrite tag target page offset data) := of_order rfl

theorem storeErase (tag target block : Byte) : Statement (.storeErase tag target block) := of_order rfl

theorem storeBlank (tag target : Byte) (first last : Word) (direction : Byte) : Statement (.storeBlank tag target first last direction) := of_order rfl

theorem storeRead (tag target : Byte) (page offset length : Word) : Statement (.storeRead tag target page offset length) := of_order rfl

theorem storeMode (tag target mode limit : Byte) : Statement (.storeMode tag target mode limit) := of_order rfl

theorem storeClear (tag target : Byte) : Statement (.storeClear tag target) := of_order rfl

theorem storeAbort (tag target : Byte) : Statement (.storeAbort tag target) := of_order rfl

theorem storeWindow (tag target first last : Byte) : Statement (.storeWindow tag target first last) := of_order rfl

theorem storeQuery (tag target : Byte) : Statement (.storeQuery tag target) := of_order rfl

theorem filmCut (tag target : Byte) : Statement (.filmCut tag target) := of_order rfl

theorem exposeSet (tag target : Byte) (fields : List FieldEntry) : Statement (.exposeSet tag target fields) := of_order rfl

theorem exposeHold (tag target : Byte) : Statement (.exposeHold tag target) := of_order rfl

theorem exposeResume (tag target : Byte) : Statement (.exposeResume tag target) := of_order rfl

theorem exposeQuery (tag target : Byte) : Statement (.exposeQuery tag target) := of_order rfl

theorem status (tag target : Byte) : Statement (.status tag target) := of_order rfl

theorem reset (tag target : Byte) : Statement (.reset tag target) := of_order rfl

theorem recordClear (tag target : Byte) : Statement (.recordClear tag target) := of_order rfl

theorem powerOn : Statement (.powerOn) := of_event rfl nofun nofun

theorem resetLineAssert : Statement (.resetLineAssert) := of_event rfl nofun nofun

theorem resetLineRelease : Statement (.resetLineRelease) := of_event rfl nofun nofun

theorem startupEnd : Statement (.startupEnd) := of_event rfl nofun nofun

theorem headerReceived (bytes : Bytes) : Statement (.headerReceived bytes) := of_event rfl nofun nofun

theorem huntCandidate (bytes : Bytes) : Statement (.huntCandidate bytes) := of_event rfl nofun nofun

theorem frameReceived (bytes : Bytes) : Statement (.frameReceived bytes) := of_event rfl nofun nofun

theorem attentionPulseExpiry : Statement (.attentionPulseExpiry) := of_event rfl nofun nofun

theorem dispatch : Statement (.dispatch) := of_event rfl nofun nofun

theorem answerSent : Statement (.answerSent) := of_event rfl nofun nofun

theorem noticeSent : Statement (.noticeSent) := of_event rfl nofun nofun

theorem arbiterChoice : Statement (.arbiterChoice) := of_event rfl nofun nofun

theorem lineDelivery : Statement (.lineDelivery) := of_event rfl nofun nofun

theorem compositionAbandon : Statement (.compositionAbandon) := of_event rfl nofun nofun

theorem mountLoadBegin : Statement (.mountLoadBegin) := of_event rfl nofun nofun

theorem fetchChoice : Statement (.fetchChoice) := of_event rfl nofun nofun

theorem fetchRequestEntry : Statement (.fetchRequestEntry) := of_event rfl nofun nofun

theorem rowOpenDone : Statement (.rowOpenDone) := of_event rfl nofun nofun

theorem transferComplete : Statement (.transferComplete) := of_event rfl nofun nofun

theorem holdDeadlineExpiry (bank : Fin 8) : Statement (.holdDeadlineExpiry bank) := of_event rfl nofun nofun

theorem bankCloseDone (bank : Fin 8) : Statement (.bankCloseDone bank) := of_event rfl nofun nofun

theorem programLineDone : Statement (.programLineDone) := of_event rfl nofun nofun

theorem erasePaused : Statement (.erasePaused) := of_event rfl nofun nofun

theorem eraseDone : Statement (.eraseDone) := of_event rfl nofun nofun

theorem filmArbiter : Statement (.filmArbiter) := of_event rfl nofun nofun

theorem recordSent : Statement (.recordSent) := of_event rfl nofun nofun

theorem unitDone : Statement (.unitDone) := of_event rfl nofun nofun

theorem unitFault (kind : Byte) : Statement (.unitFault kind) := of_event rfl nofun nofun

theorem exposureTimeout : Statement (.exposureTimeout) := of_event rfl nofun nofun

theorem unknownReturnByte (byte : Byte) : Statement (.unknownReturnByte byte) := by
  intro w
  simp only [Instr.wf, orderOf, Bool.and_eq_true, bne_iff_ne] at w
  exact ⟨fun e => w.1 (Instr.unknownReturnByte.inj e), fun e => w.2 (Instr.unknownReturnByte.inj e)⟩

end Sys2Proof.Laws.WellFormedBody
end

