-- ==== Sys2Proof/Laws/Strike.lean ====
section
/-! SUPPORT. The strike port and the strike assembler: what the outbound lane presents, what the unit's acknowledgements and the SA's
fetches leave as they were, and what the SA sends next. -/

namespace Sys2Proof.Machine

/-! ### The outbound lane (R157) -/

/-- Every record has at least its kind byte. -/
theorem OutRecord.bytes_pos (r : OutRecord) : 0 < r.bytes.length := by cases r <;> simp [OutRecord.bytes]

@[simp] theorem Sa.idleLane_lane (a : Sa) : a.idleLane.lane = [] := rfl

@[simp] theorem Sa.idleLane_acked (a : Sa) : a.idleLane.acked = 0 := rfl

@[simp] theorem Sa.idleLane_assembly (a : Sa) : a.idleLane.assembly = a.assembly := rfl

@[simp] theorem Sa.idleLane_buffers (a : Sa) : a.idleLane.buffers = a.buffers := rfl

@[simp] theorem Sa.idleLane_returnPartial (a : Sa) : a.idleLane.returnPartial = a.returnPartial := rfl

/-- With no record in the lane nothing is presented. -/
theorem Sa.presented_idle {a : Sa} (h : a.lane = []) : a.presented = none := by simp [Sa.presented, h]

/-- The byte presented is the first that the unit has not acknowledged. -/
theorem Sa.presented_cons {a : Sa} {r : OutRecord} {rest : List OutRecord} (h : a.lane = r :: rest) :
    a.presented = r.bytes[a.acked]? := by simp [Sa.presented, h]

/-- Before any acknowledgement the first byte of the lane's first record is presented. -/
theorem Sa.presented_first {a : Sa} (h : a.acked = 0) : a.presented = a.lane.head?.bind (fun q => q.bytes.head?) := by
  cases hl : a.lane with
  | nil => exact Sa.presented_idle hl
  | cons r rest => simp [Sa.presented_cons hl, h, List.head?_eq_getElem?]

/-- The strobe is low while the lane is idle. -/
@[simp] theorem Sa.strobeHigh_idleLane (a : Sa) : a.idleLane.strobeHigh = false := rfl

/-- R157: the strobe is raised exactly while the lane holds a record, where the count of acknowledgements is within it. -/
theorem Sa.strobeHigh_iff {s : State} (h : LaneLaw s) : s.sa.strobeHigh = true ↔ s.sa.lane ≠ [] := by
  cases hl : s.sa.lane with
  | nil => simp [Sa.strobeHigh, Sa.presented_idle hl]
  | cons r rest => simp [Sa.strobeHigh, Sa.presented_cons hl, h.2 r rest hl]

/-- R157: all that the unit does while no command comes: nothing, where no byte before a record's last awaits its acknowledgement; or
it acknowledges some number of those bytes, never the last, and nothing else changes but the serial number. -/
theorem State.unitAcks_cases (s : State) :
    ((∀ r rest, s.sa.lane = r :: rest → r.bytes.length ≤ s.sa.acked + 1) ∧ s.unitAcks = s) ∨
      ∃ r rest n, s.sa.lane = r :: rest ∧ s.sa.acked + n < r.bytes.length ∧
        s.unitAcks = { s with sa := { s.sa with acked := s.sa.acked + n }, serial := s.serial + 1 } := by
  unfold State.unitAcks
  cases hl : s.sa.lane with
  | nil => exact .inl ⟨by simp, rfl⟩
  | cons r rest =>
    by_cases h : s.sa.acked + 1 < r.bytes.length
    · obtain ⟨k, hk, e⟩ := gone_of_lt h (Config.unitPace s.serial)
      exact .inr ⟨r, rest, k, rfl, hk, by simp [h, e, hl]⟩
    · exact .inl ⟨fun q qs e => by cases e; omega, by simp [h]⟩

@[simp] theorem State.unitAcks_olu (s : State) : s.unitAcks.olu = s.olu := by
  unfold State.unitAcks; split <;> (try split) <;> rfl

@[simp] theorem State.unitAcks_fdm (s : State) : s.unitAcks.fdm = s.fdm := by
  unfold State.unitAcks; split <;> (try split) <;> rfl

@[simp] theorem State.unitAcks_ch (s : State) : s.unitAcks.ch = s.ch := by
  unfold State.unitAcks; split <;> (try split) <;> rfl

@[simp] theorem State.unitAcks_ce (s : State) : s.unitAcks.ce = s.ce := by
  unfold State.unitAcks; split <;> (try split) <;> rfl

@[simp] theorem State.unitAcks_fs (s : State) : s.unitAcks.fs = s.fs := by
  unfold State.unitAcks; split <;> (try split) <;> rfl

@[simp] theorem State.unitAcks_sq (s : State) : s.unitAcks.sq = s.sq := by
  unfold State.unitAcks; split <;> (try split) <;> rfl

@[simp] theorem State.unitAcks_ex (s : State) : s.unitAcks.ex = s.ex := by
  unfold State.unitAcks; split <;> (try split) <;> rfl

@[simp] theorem State.unitAcks_store (s : State) : s.unitAcks.store = s.store := by
  unfold State.unitAcks; split <;> (try split) <;> rfl

@[simp] theorem State.unitAcks_time (s : State) : s.unitAcks.time = s.time := by
  unfold State.unitAcks; split <;> (try split) <;> rfl

@[simp] theorem State.unitAcks_pending (s : State) : s.unitAcks.pending = s.pending := by
  unfold State.unitAcks; split <;> (try split) <;> rfl

/-- The unit's acknowledgements keep the count of them within the record. -/
theorem State.unitAcks_laneLaw {s : State} (h : LaneLaw s) : LaneLaw s.unitAcks := by
  obtain ⟨-, e⟩ | ⟨r, rest, n, hl, hn, e⟩ := s.unitAcks_cases
  · rw [e]; exact h
  · rw [e]
    refine ⟨fun hi => ?_, fun q qs hq => ?_⟩
    · cases hl.symm.trans hi
    · cases hl.symm.trans hq
      exact hn

/-! ### The SA's fetches (R162) -/

/-- R162: the SA's fetches leave the lane and the return lane as they are, and of the assembly all but its fetch point and the
replacements it owes. -/
theorem pumpStrike_frame (d : Fdm) : ∀ (n : Nat) (a : Sa) (f : Fs),
    ((pumpStrike d n a f).1.lane = a.lane ∧ (pumpStrike d n a f).1.acked = a.acked) ∧
      (pumpStrike d n a f).1.returnPartial = a.returnPartial ∧
      (a.assembly = none → (pumpStrike d n a f).1 = a) ∧
      (∀ w, a.assembly = some w → ∃ k owed, (pumpStrike d n a f).1.assembly = some { w with fetchPoint := k, owed := owed } ∧
        w.fetchPoint ≤ k) := by
  intro n
  induction n with
  | zero => exact fun a f => ⟨⟨rfl, rfl⟩, rfl, fun _ => rfl, fun w h => ⟨_, _, h, Nat.le_refl _⟩⟩
  | succ n ih =>
    intro a f
    unfold pumpStrike
    cases ha : a.assembly with
    | none => exact ⟨⟨rfl, rfl⟩, rfl, fun _ => rfl, fun w h => by simp at h⟩
    | some w =>
      dsimp only
      split
      · exact ⟨⟨rfl, rfl⟩, rfl, fun _ => rfl, fun v h => ⟨_, _, by rw [ha, h], Nat.le_refl _⟩⟩
      · split
        · next b rest _ =>
          obtain ⟨h1, h2, -, h4⟩ := ih { a with assembly := some { w with owed := rest } }
            (match a.replacement d w b with
            | some r => f.request r
            | none => f)
          refine ⟨h1, h2, fun h => by simp at h, fun v hv => ?_⟩
          cases hv
          obtain ⟨k, owed, e, hk⟩ := h4 _ rfl
          exact ⟨k, owed, e, hk⟩
        · split
          · next r b _ _ =>
            obtain ⟨h1, h2, -, h4⟩ := ih
              { a with assembly := some { w with fetchPoint := w.fetchPoint + 1 },
                       buffers := setAt a.buffers b (.fetching w.fetchPoint false) }
              (f.request (masterFetch d r.pos r.glyph b))
            refine ⟨h1, h2, fun h => by simp at h, fun v hv => ?_⟩
            cases hv
            obtain ⟨k, owed, e, hk⟩ := h4 _ rfl
            exact ⟨k, owed, e, by simp only [] at hk; omega⟩
          · exact ⟨⟨rfl, rfl⟩, rfl, fun _ => rfl, fun v h => ⟨_, _, by rw [ha, h], Nat.le_refl _⟩⟩

/-- The SA's fetches change the SA and the fetch scheduler alone, and neither lane. -/
theorem State.pumpSa_frame (s : State) :
    s.pumpSa = { s with sa := s.pumpSa.sa, fs := s.pumpSa.fs } ∧ s.pumpSa.sa.lane = s.sa.lane ∧ s.pumpSa.sa.acked = s.sa.acked ∧
      s.pumpSa.sa.returnPartial = s.sa.returnPartial :=
  have h := pumpStrike_frame s.fdm 16 s.sa s.fs
  ⟨rfl, h.1.1, h.1.2, h.2.1⟩

/-- With the lane busy, or with no assembly, nothing is sent. -/
theorem sendNext_waits {s : State} (h : s.sa.lane ≠ [] ∨ s.sa.assembly = none) (n : Nat) : sendNext n s = s := by
  cases n with
  | zero => rfl
  | succ n =>
    unfold sendNext
    split
    · next w h1 h2 => rcases h with h | h
                      · exact absurd h1 h
                      · rw [h2] at h; cases h
    · rfl

/-- R164: what the SA sends next changes the SA and the fetch scheduler alone. -/
theorem sendNext_frame : ∀ (n : Nat) (s : State), sendNext n s = { s with sa := (sendNext n s).sa, fs := (sendNext n s).fs } := by
  intro n
  induction n with
  | zero => exact fun s => rfl
  | succ n ih =>
    intro s
    unfold sendNext
    split
    · split
      · rfl
      · split
        · rfl
        · split
          · exact ih _
          · rfl
    · rfl

/-- Nor does it change the count of bytes acknowledged. -/
theorem sendNext_acked : ∀ (n : Nat) (s : State), (sendNext n s).sa.acked = s.sa.acked := by
  intro n
  induction n with
  | zero => exact fun s => rfl
  | succ n ih =>
    intro s
    unfold sendNext
    split
    · split
      · rfl
      · split
        · rfl
        · split
          · rw [ih, (State.pumpSa_frame _).2.2.1]
          · rfl
    · rfl

@[simp] theorem State.send_acked (s : State) : s.send.sa.acked = s.sa.acked := sendNext_acked 9 s

/-- The records in the lane stay ahead of what the SA sends next. -/
theorem State.sendsNext_lane {s t : State} (h : State.SendsNext s t) : s.sa.lane <:+ t.sa.lane := by
  induction h with
  | busy => exact List.suffix_refl _
  | idle => exact List.suffix_refl _
  | ends h => simp [h]
  | waits => exact List.suffix_refl _
  | sends h => simp [h]
  | passes h => simp [h]

/-! ### What is sent next (R164) -/

/-- The buffer holds fetched bytes. -/
def MasterBuf.isFilled : MasterBuf → Bool
  | .filled _ _ _ => true
  | _ => false

/-- The buffers that hold fetched bytes. -/
def Sa.filledSet (a : Sa) : Finset (Fin 8) := Finset.univ.filter (fun b => a.buffers[b].isFilled = true)

theorem Sa.mem_filledSet {a : Sa} {b : Fin 8} : b ∈ a.filledSet ↔ a.buffers[b].isFilled = true := by simp [Sa.filledSet]

/-- The buffer found for a record is FILLED with what it gives. -/
theorem Sa.filledFor_some {a : Sa} {i : Nat} {b : Fin 8} {data : Bytes} {om : Bool} (h : a.filledFor i = some (b, data, om)) :
    a.buffers[b] = .filled i data om := by
  unfold Sa.filledFor at h
  obtain ⟨c, -, hc⟩ := List.exists_of_findSome?_eq_some h
  cases hb : a.buffers[c] with
  | free => simp [hb] at hc
  | fetching j again => simp [hb] at hc
  | filled j d o =>
    simp only [hb] at hc
    split at hc
    · next e => subst e; cases hc; exact hb
    · cases hc

/-- R162: the SA's fetches fill no buffer. -/
theorem pumpStrike_filledSet (d : Fdm) : ∀ (n : Nat) (a : Sa) (f : Fs), (pumpStrike d n a f).1.filledSet ⊆ a.filledSet := by
  intro n
  induction n with
  | zero => exact fun a f => Finset.Subset.refl _
  | succ n ih =>
    intro a f
    unfold pumpStrike
    split
    · exact Finset.Subset.refl _
    · next w hw =>
      split
      · exact Finset.Subset.refl _
      · split
        · exact ih { a with assembly := some { w with owed := _ } } _
        · split
          · next r b _ _ =>
            refine (ih _ _).trans fun c hc => ?_
            rw [Sa.mem_filledSet] at hc ⊢
            rw [setAt_get] at hc
            split at hc
            · cases hc
            · exact hc
          · exact Finset.Subset.refl _

/-- R164: passing over an omitted record leaves fewer buffers FILLED. -/
theorem Sa.filledSet_passes {s : State} {w : Assembly} {b : Fin 8} {data : Bytes} {om : Bool}
    (h : s.sa.filledFor w.sendPoint = some (b, data, om)) :
    (State.pumpSa { s with sa := { s.sa with
      assembly := some { w with sendPoint := w.sendPoint + 1 }, buffers := setAt s.sa.buffers b .free } }).sa.filledSet.card <
      s.sa.filledSet.card := by
  refine Finset.card_lt_card ⟨fun c hc => ?_, fun hs => ?_⟩
  · have := pumpStrike_filledSet _ _ _ _ hc
    rw [Sa.mem_filledSet] at this ⊢
    rw [setAt_get] at this
    split at this
    · cases this
    · exact this
  · have hb : b ∈ s.sa.filledSet := by rw [Sa.mem_filledSet, Sa.filledFor_some h]; rfl
    have := pumpStrike_filledSet _ _ _ _ (hs hb)
    rw [Sa.mem_filledSet] at this
    simp [MasterBuf.isFilled] at this

theorem sendNext_sendsNext : ∀ (n : Nat) (s : State), s.sa.filledSet.card < n → State.SendsNext s (sendNext n s) := by
  intro n
  induction n with
  | zero => exact fun s h => absurd h (Nat.not_lt_zero _)
  | succ n ih =>
    intro s hn
    unfold sendNext
    split
    · next w hl hw =>
      split
      · next h => exact .ends hl hw (List.getElem?_eq_none_iff.mp h)
      · next r hr =>
        have hlt : w.sendPoint < w.list.length := (List.getElem?_eq_some_iff.mp hr).1
        split
        · next h => exact .waits hl hw hlt h
        · next b data omitted h =>
          split
          · next ho =>
            subst ho
            exact .passes hl hw hlt h (ih _ (by have := Sa.filledSet_passes h; omega))
          · next ho =>
            obtain rfl : omitted = false := by simpa using ho
            exact .sends hl hw hr h
    · next h =>
      by_cases hl : s.sa.lane = []
      · cases hw : s.sa.assembly with
        | none => exact .idle hw
        | some w => exact absurd hw (h w hl)
      · exact .busy hl

/-- R164: what the SA sends from the send point on. -/
theorem State.send_sendsNext (s : State) : State.SendsNext s s.send := by
  refine sendNext_sendsNext 9 s (Nat.lt_succ_of_le ?_)
  exact (Finset.card_le_univ _).trans (by simp)

end Sys2Proof.Machine
end

