-- ==== Sys2Proof/Tests/Slice0.lean ====
section
/-! SUPPORT. The model's own tests: ill-formed commands refused, the book's worked examples and sessions, one small step of each
command, and for each statement of Obligations.lean with hypotheses the states and operands that meet them. Expected values are the
book's; where the book gives none the comment says so. -/

namespace Sys2Proof.Tests

set_option Elab.async false

open Sys2Proof.Machine

/-! ### Helpers -/

/-- The part running, its order link free. -/
def ready : State := { olu := { phase := .running } }

theorem ready_free : ready.linkFree := ⟨rfl, rfl, rfl, rfl⟩

/-- The state a command leads to. -/
def after (c : Instr) (s : State) : State :=
  match exec c s with
  | .next t => t
  | _ => s

/-- The body of the return being sent. -/
def sent (s : State) : Option Bytes := s.olu.sending.map (·.body)

/-- The kinds of the returns on their way, the one being sent first. -/
def kinds (s : State) : List Byte := (s.olu.sending.map (·.kind)).toList ++ s.olu.notices.map (·.kind)

/-- A line header with the fields the exposure queue reads. -/
def headerAt (c : Fin 4) (number : BitVec 16) (baseline : Nat) : LineHeader :=
  { channel := c, lineNumber := number, tag := 17, baseline := baseline, indent := 0, measure := 8448, paraDir := .ltr, quad := .leading,
    width := 0, nOpt := 0, leftOffset := 0, shortfall := 0, setw := 40, k := 0, adjust := 0, remCount := 0, remStep := 1, e := 0,
    elongAdded := 0, g := 0, letterAdded := 0, marks := {}, firstIndex := 0, breakIndex := 0, placements := 0 }

/-- A line that sets nothing. -/
def lineAt (c : Fin 4) (baseline : Nat) : Line := { header := headerAt c 7 baseline, used := [], placements := [], visual := [] }

/-- A QUEUED line that sets nothing. -/
def queuedAt (slot : Fin 16) (c : Fin 4) (baseline : Nat) (bypass : Nat := 0) : QueuedLine := ⟨slot, lineAt c baseline, bypass⟩

/-- An EXPOSING line that sets nothing. -/
def exposingAt (slot : Fin 16) (c : Fin 4) (baseline : Nat) : ExposingLine := { slot := slot, line := lineAt c baseline, travel := 0 }

/-- The part with one channel's state replaced. -/
def withCh (c : Fin 4) (x : Channel) (s : State) : State := { s with ch := setAt s.ch c x }

/-- The part with a face's entry and a position's content replaced. -/
def withFace (f : Fin 128) (e : FaceEntry) (p : Fin 8) (m : MountPos) (s : State) : State :=
  { s with fdm := { s.fdm with dir := setAt s.fdm.dir f e, pos := setAt s.fdm.pos p m } }

/-- A fetch request with no more said of it. -/
def fetchOf (q : Requester) (page length : Nat) (bypass : Nat := 0) : FetchReq :=
  { requester := q, page := page, offset := 0, length := length, bypass := bypass }

/-! ### Well-formed commands (R173, R184, R185) -/

theorem test_wf_copy_empty : (Instr.copy 1 0 []).wf = false := by decide
theorem test_wf_copy_513 : (Instr.copy 1 0 (List.replicate 513 ⟨2, 0⟩)).wf = false := by decide +kernel
theorem test_wf_copy_512 : (Instr.copy 1 0 (List.replicate 512 ⟨2, 0⟩)).wf = true := by decide +kernel
theorem test_wf_copy_unit_kind : (Instr.copy 1 0 [⟨13, 0⟩]).wf = false := by decide
theorem test_wf_copy_unit_value : (Instr.copy 1 0 [⟨12, 3⟩]).wf = false := by decide
theorem test_wf_channel_4 : (Instr.release 1 4).wf = false := by decide
theorem test_wf_channel_3 : (Instr.release 1 3).wf = true := by decide
theorem test_wf_target : (Instr.status 1 1).wf = false := by decide
theorem test_wf_set_number : (Instr.channelSet 1 0 [⟨19, 0⟩]).wf = false := by decide
theorem test_wf_set_twice : (Instr.channelSet 1 0 [⟨1, 900⟩, ⟨1, 900⟩]).wf = false := by decide
theorem test_wf_set_enum : (Instr.channelSet 1 0 [⟨18, 4⟩]).wf = false := by decide
theorem test_wf_set_nineteen : (Instr.channelSet 1 0 (List.replicate 19 ⟨1, 900⟩)).wf = false := by decide
theorem test_wf_fetch_number : (Instr.fetchSet 1 0 [⟨3, 0⟩]).wf = false := by decide
theorem test_wf_fetch_three : (Instr.fetchSet 1 0 (List.replicate 3 ⟨1, 0⟩)).wf = false := by decide
theorem test_wf_expose_number : (Instr.exposeSet 1 0 [⟨0, 0⟩]).wf = false := by decide
theorem test_wf_expose_seven : (Instr.exposeSet 1 0 (List.replicate 7 ⟨1, 0⟩)).wf = false := by decide
theorem test_wf_write_255 : (Instr.storeWrite 1 0 0 0 (List.replicate 255 0)).wf = false := by decide +kernel
theorem test_wf_write_256 : (Instr.storeWrite 1 0 0 0 (List.replicate 256 0)).wf = true := by decide +kernel
theorem test_wf_blank_direction : (Instr.storeBlank 1 0 0 0 2).wf = false := by decide
theorem test_wf_mode : (Instr.storeMode 1 0 2 0).wf = false := by decide
theorem test_wf_return_done : (Instr.unknownReturnByte 0x71).wf = false := by decide
theorem test_wf_return_fault : (Instr.unknownReturnByte 0x72).wf = false := by decide

/-- The table gives no row bits (log entry 23). -/
theorem test_decode_none : Sys2Proof.decodeTableWord 8 0x10 = none := rfl

/-! ### Arithmetic and checks (R3, R8, R14, R34, R168) -/

theorem test_scale_table : scale 556 40 1000 = 356 ∧ scale (-20) 40 1000 = -13 ∧ scale 1 16 512 = 1 ∧ scale (-1) 16 512 = -1 ∧
    scale 167 40 1000 = 107 ∧ scale 3 20 1000 = 1 ∧ scale 0 40 1000 = 0 := by decide
/-- The header check of section 11.9. -/
theorem test_header_check : headerCheck [0x10, 0x11, 0x01, 0x00, 0x09] = 0xD5 := by decide
/-- R34: the check of the bytes 49 to 57. -/
theorem test_section_check : crc32 [49, 50, 51, 52, 53, 54, 55, 56, 57] = 3421780262#32 := by decide +kernel
/-- R168: a register of all ones shifted by no byte. -/
theorem test_body_check_empty : bodyCheck [] = 0xFFFF := rfl

/-! ### Composition: the worked lines of sections 3.7, 3.8, 5.7 and 5.8 -/

/-- A base glyph of a width. -/
def glyphOf (width : Int) : GlyphRec := ⟨width, 0, 0, 0, 0, 0, 0⟩

/-- A working context at 40 qp with a face drawn at position 0. -/
def workAt (dir : Dir) (face : Fin 128) : Working := ⟨face.val, ⟨0, face⟩, 40, 40, 0, true, dir, .leading⟩

/-- A composition at its line start, the face test passed. -/
def compAt (ctx : Context) (w : Working) : Composition :=
  { channel := 1, slot := 0, spanLen := 100, ctx := ctx, carry := none, lineSetw := w.eff, startClamped := false, work := w,
    started := true }

/-- The composition with units read (none of them a FACE). -/
def readAll (c : Composition) (us : List CopyUnit) : Composition :=
  us.foldl (fun c u => match readUnit {} c.ctx.fallback c.work c.run ⟨u, 17⟩ with
    | .ok r => c.take r
    | .error _ => c) c

/-- The line that copy of tag 17 sets on a face, its first unit's index 100 and its number 3. -/
def lineOf (f : Face) (ctx : Context) (w : Working) (us : List CopyUnit) (next : Nat) : Option Line :=
  let c := readAll (compAt ctx w) us
  let g := c.setting (fun _ => f)
  (lineEnd g none false c.read).map (fun e => buildLine g c e next 3 100)

/-- The clusters that copy shapes to on a face. -/
def clustersIn (f : Face) (carry : Option Carry) (w : Working) (us : List CopyUnit) : List Cluster :=
  clustersOf (fun _ => f) carry false (readAll (compAt {} w) us).read

/-- The face of section 1.8. -/
def faceAB : Face :=
  { e := 1000, missing := 0, dflt := 0, ext := 0, figure := 500,
    glyphs := [glyphOf 0, glyphOf 500, glyphOf 556, glyphOf 278, glyphOf 611],
    map := [⟨65, 0, 1, 1, 1, 1⟩, ⟨66, 0, 2, 2, 2, 2⟩, ⟨67, 0, 3, 3, 3, 3⟩, ⟨68, 0, 4, 4, 4, 4⟩],
    ligs := [], kerns := [⟨1, 2, -20⟩] }

/-- The channel of section 1.8. -/
def ctxAB (measure : Nat) : Context :=
  { measure := measure, wsMin := 170, wsOpt := 250, wsMax := 400, letterLimit := 0, size := 40, setw := 40 }

/-- The copy of section 1.8. -/
def copyAB : List CopyUnit :=
  [.char 65, .char 66, .space, .char 67, .char 68, .space, .char 65, .char 68, .space, .char 68, .char 68, .char 68, .char 68, .space]

/-- The line of section 5.7 in a measure. -/
def lineAB (measure : Nat) : Option Line := lineOf faceAB (ctxAB measure) (workAt .ltr 5) copyAB 0

theorem test_lineAB_stretch : (lineAB 2304).map (fun l => (l.header.k, l.header.adjust, l.header.remCount, l.header.remStep)) =
    some (2, 20, 1, 1) := by decide +kernel
theorem test_lineAB_edges : (lineAB 2304).map (fun l => (l.placements.map (·.x), l.header.nOpt, l.header.breakIndex)) =
    some ([0, 307, 663, 844, 1022, 1413, 1593, 1913], 2263, 109) := by decide +kernel
theorem test_lineAB_loose : (lineAB 3000).map (fun l => (l.header.adjust, l.header.remCount, l.header.width, l.header.marks)) =
    some (368, 1, 3000, { loose := true }) := by decide +kernel
theorem test_lineAB_overset : (lineAB 600).map (fun l => (l.header.k, l.header.width, l.header.shortfall, l.header.marks)) =
    some (0, 663, -63, { overset := true }) := by decide +kernel

/-- The face of section 5.8. -/
def face25 : Face :=
  { faceAB with
    glyphs := (List.range 96).map (fun i =>
      glyphOf (if i = 71 then 250 else if i = 83 then 400 else if i = 90 then 500 else if i = 95 then 469 else 556)),
    map := [⟨49, 0, 51, 51, 51, 51⟩, ⟨50, 0, 52, 52, 52, 52⟩, ⟨1605, 2, 70, 71, 72, 73⟩, ⟨1606, 1, 80, 81, 82, 83⟩,
      ⟨1607, 0, 90, 90, 90, 90⟩, ⟨1608, 0, 95, 95, 95, 95⟩],
    kerns := [] }

/-- The copy of section 5.8, to unit 9. -/
def copy25 : List CopyUnit :=
  [.char 1605, .char 1606, .space, .dir .ltr, .char 49, .char 50, .dir .rtl, .space, .char 1607]

/-- The line of section 5.8 with the rest of its copy. -/
def line25 (more : List CopyUnit) : Option Line :=
  lineOf face25
    { measure := 2000, paraDir := .rtl, wsMin := 200, wsOpt := 250, wsMax := 300, size := 40, setw := 40 }
    (workAt .rtl 25) (copy25 ++ more) 10000

/-- The line of section 5.8 as it stands there. -/
def line25full : Option Line := line25 [.space, .char 1608, .char 1608, .space]

theorem test_line25_header : line25full.map (fun l => (l.header.baseline, l.header.width, l.header.k, l.header.adjust)) =
    some (10704, 2000, 2, 32) := by decide +kernel
theorem test_line25_added : line25full.map (fun l => (l.header.e, l.header.elongAdded, l.header.g, l.header.letterAdded)) =
    some (1, 168, 1, 0) := by decide +kernel
theorem test_line25_visual : line25full.map (fun l => (l.visual, l.placements.map (fun p => (p.x, p.extX)))) =
    some ([6, 5, 3, 4, 2, 1, 0],
      [(1840, some 1672), (1416, none), (1224, none), (512, none), (868, none), (320, none), (0, none)]) := by decide +kernel
theorem test_line25_last : (line25 [.endPara .leading]).map (fun l =>
      (l.header.leftOffset, l.header.marks, l.placements.map (·.x))) =
    some (232, { last := true }, [1840, 1584, 1424, 712, 1068, 552, 232]) := by decide +kernel

/-- The face of section 3.7. -/
def face20 : Face :=
  { faceAB with
    glyphs := (List.range 64).map (fun i =>
      if i = 40 then ⟨0, 1, 200, 0, 0, 0, 0⟩
      else if i = 61 then ⟨820, 0, 410, 720, 0, 0, 0⟩
      else glyphOf (if i = 11 then 250 else if i = 60 then 610 else 400)),
    map := [⟨1601, 2, 10, 11, 12, 13⟩, ⟨1602, 1, 20, 65535, 65535, 23⟩, ⟨1603, 2, 30, 31, 32, 65535⟩,
      ⟨1700, 3, 40, 65535, 65535, 65535⟩],
    ligs := [⟨32, 12, 65535, 61⟩, ⟨12, 12, 65535, 63⟩, ⟨12, 23, 65535, 60⟩], kerns := [⟨11, 61, -15⟩, ⟨61, 60, 12⟩] }

/-- The copy of section 3.7. -/
def copy20 : List CopyUnit :=
  [.char 1601, .char 1603, .char 1700, .char 1601, .brk false, .char 1601, .char 1602, .space]

/-- The shaped word of section 3.7. -/
def word20 : List Cluster := clustersIn face20 none (workAt .rtl 20) copy20

theorem test_word20_glyphs : word20.map (fun c => (c.base.glyph, c.base.first, c.marks.map (·.idx))) =
    [(11, 0, []), (61, 1, [2]), (60, 5, [])] := by decide +kernel
theorem test_word20_joins : word20.map (fun c => (c.base.jp, c.base.jn)) = [(false, true), (true, true), (true, false)] := by
  decide +kernel
theorem test_word20_escapements : word20.map (fun c => glyphEsc (fun _ => face20) c.base.work c.base.glyph) = [160, 525, 390] := by
  decide +kernel
theorem test_word20_gaps : (word20.zip (word20.drop 1)).map (fun p => gapParts (fun _ => face20) p.1.base p.2.base) = [-10, 8] := by
  decide +kernel
theorem test_word20_mark : word20.flatMap (fun c => c.marks.map (fun m => markOffset (fun _ => face20) c.base m 0)) =
    [(134, 461, false)] := by decide +kernel
theorem test_carry_sets : carryAfter (fun _ => face20) (readAll (compAt {} (workAt .rtl 20)) copy20) ⟨4, .brk false, false⟩ =
    some ⟨20, .rtl⟩ := by decide +kernel
theorem test_carry_applies :
    (clustersIn face20 (some ⟨20, .rtl⟩) (workAt .rtl 20) (copy20.drop 5)).map (·.base.glyph) = [60] := by decide +kernel
theorem test_carry_clear : (clustersIn face20 none (workAt .rtl 20) (copy20.drop 5)).map (·.base.glyph) = [11, 23] := by
  decide +kernel

/-- The face of section 3.8. -/
def face30 : Face :=
  { faceAB with
    dflt := 1,
    glyphs := [glyphOf 0, ⟨400, 0, 200, 650, 200, -40, 0⟩, glyphOf 0, glyphOf 0, glyphOf 0, ⟨600, 0, 300, 700, 300, -50, 0⟩,
      ⟨0, 1, 120, 0, 0, 250, 0⟩, ⟨0, 2, 100, 0, 0, -180, 0⟩],
    map := [⟨65, 3, 6, 6, 6, 6⟩, ⟨66, 0, 5, 5, 5, 5⟩, ⟨85, 3, 7, 7, 7, 7⟩], kerns := [] }

/-- The line of section 3.8, ended by an END_LINE. -/
def line30 : Option Line :=
  lineOf face30 { size := 40, setw := 40 } (workAt .ltr 30)
    [.char 66, .char 65, .char 65, .char 85, .char 65, .char 65, .space, .char 85, .endLine] 0

theorem test_line30_marks : line30.map (fun l => l.placements.map (fun p => (p.base, p.xoff, p.yoff))) =
    some [(none, 0, 0), (some 0, 115, 448), (some 0, 115, 608), (some 0, 128, -32), (some 0, 115, 768), (none, 0, 0), (none, 0, 0),
      (some 6, 64, -26)] := by decide +kernel
theorem test_line30_dropped : line30.map (fun l => (l.header.marks.marksDropped, l.placements.map (·.glyph))) =
    some (true, [some 5, some 6, some 6, some 7, some 6, none, some 1, some 7]) := by decide +kernel

/-! ### Orders: one step each, from the rules and the worked sessions -/

/-- The frame of section 11.9 less its body check. -/
def copyFrame : Bytes := [0xE5, 0x10, 0x11, 0x01, 0x00, 0x09, 0xD5, 0x01, 0x00, 0x41, 0x02, 0x00, 0x00, 0x0C, 0x00, 0x00]

theorem test_copy_frame : ((after (.frameReceived (copyFrame ++ u16 (bodyCheck (copyFrame.drop 7)).toNat)) ready).olu.frames.map
    (fun f => (f.kind, f.tag, f.target, f.checkOk))) = [(0x10, 17, 1, true)] := by decide +kernel
/-- Section 11.9: a buffer of 4,000 units leaves a free space of 93. -/
theorem test_copy : sent (after (.copy 17 1 [⟨1, 65⟩, ⟨2, 0⟩, ⟨12, 0⟩])
      (withCh 1 { buffer := List.replicate 4000 ⟨.space, 0⟩ } ready)) =
    some [0x10, 0x00, 0x5D, 0x00, 0x00, 0x0F, 0xA0] := by decide +kernel
/-- Section 11.9: FORM at unit place 1. -/
theorem test_copy_refused : sent (after (.copy 17 1 [⟨1, 65⟩, ⟨13, 0⟩]) ready) = some [0x10, 0x03, 0x00, 0x01] := by decide +kernel
/-- Section 4.7, step 4. -/
theorem test_channelSet_pends :
    ((after (.channelSet 1 2 [⟨1, 6000⟩, ⟨2, 20000⟩]) (withCh 2 { state := .composing } ready)).ch[2]).pendSet =
      [(.measure, 6000), (.leading, 18432)] := by decide +kernel
/-- R6: a minimum above the optimum and maximum raises both. -/
theorem test_channelSet_orders : ((after (.channelSet 1 0 [⟨5, 600⟩]) ready).ch[0]).ctx =
    { wsMin := 600, wsOpt := 600, wsMax := 600 } := by decide +kernel
theorem test_column_clamps : sent (after (.column 1 0 4194304#32) ready) = some [0x12, 1] ∧
    ((after (.column 1 0 4194304#32) ready).ch[0]).next = 4194303 := by decide +kernel
/-- Section 4.7, step 7. -/
theorem test_cancel : sent (after (.cancel 1 2) {
    withCh 2 { buffer := List.replicate 491 ⟨.space, 0⟩, state := .pending } ready with
    ex := { queued := [queuedAt 0 2 704, queuedAt 1 1 704] } }) = some [0x13, 0x01, 0xEB, 1, 0, 0] := by decide +kernel
theorem test_release : ((after (.release 1 3) (withCh 3 { state := .held .reach } ready)).ch[3]).state = .idle ∧
    sent (after (.release 1 3) ready) = some [0x14, 5, 0, 0] := by decide +kernel
/-- R72: an IDLE channel: no reason, no hold request, 0 units, 4,096 free. -/
theorem test_channelQuery : (sent (after (.channelQuery 1 0) ready)).map (·.take 8) = some [0x15, 0, 255, 0, 0, 0, 0x10, 0] := by
  decide +kernel
theorem test_faceDefine_overlap : sent (after (.faceDefine 1 0 4 128 8)
    (withFace 5 ⟨.withdrawing, 132, 4⟩ 0 {} ready)) = some [0x20, 9, 0, 0] := by decide +kernel
theorem test_faceDefine_alignment : sent (after (.faceDefine 1 0 4 132 8) ready) = some [0x20, 4, 0, 0] := by decide +kernel
/-- Section 2.6, step 1. -/
theorem test_faceWithdraw : ((after (.faceWithdraw 1 0 3)
    (withFace 3 ⟨.defined, 0, 1⟩ 0 { state := .mounted 3, count := 2 } ready)).fdm.dir[3]).state = .withdrawing := by decide +kernel
theorem test_mapLock : sent (after (.mapLock 1 0) ready) = some [0x22, 0] ∧ (after (.mapLock 1 0) ready).fdm.lock = true := by
  decide +kernel
theorem test_faceQuery_range : sent (after (.faceQuery 1 0 128) ready) = some [0x23, 4, 0, 0] := by decide +kernel
/-- Section 2.6, step 7. -/
theorem test_mount : (after (.mount 1 0 7) (withFace 7 ⟨.defined, 64, 16⟩ 0 {} ready)).fdm.requests = [⟨7, [], true⟩] := by
  decide +kernel
theorem test_fetchSet_clamps : ((after (.fetchSet 1 0 [⟨1, 20⟩, ⟨2, 0⟩]) ready).fs.bypassLimit,
    (after (.fetchSet 1 0 [⟨1, 20⟩, ⟨2, 0⟩]) ready).fs.hold) = (15, 0) := by decide +kernel

/-- The part of section 7.8: window 0 to 31, face 9 in block 32. -/
def session78 (q : Sq) : State := { withFace 9 ⟨.defined, 2048, 64⟩ 0 {} ready with sq := { q with window := some (0, 31) } }

/-- A program line of section 7.8. -/
def blankLine (page offset : Nat) : ProgLine := ⟨page, offset, List.replicate 256 255⟩

/-- The order of a line of section 7.8. -/
def writeAt (page offset : Word) : Instr := .storeWrite 1 0 page offset (List.replicate 256 255)

/-- Section 7.8, step 1. -/
theorem test_storeWrite : (after (writeAt 2112 0) (session78 {})).sq.state = .programming ∧
    sent (after (writeAt 2112 0) (session78 {})) = some [0x30, 1] := by decide +kernel
/-- Section 7.8, step 7. -/
theorem test_storeWrite_inUse :
    (after (writeAt 2050 0) (session78 {
      state := .programming, programmed := 1, buffer := [blankLine 2112 256, blankLine 2112 512] })).sq =
    (session78 {
      state := .programming, programmed := 1, buffer := [blankLine 2112 256],
      lockPending := true, discarded := 1, kinds := { inUse := true } }).sq := by decide +kernel
theorem test_storeErase_range : (after (.storeErase 1 0 64) ready).sq.state = .locked ∧
    sent (after (.storeErase 1 0 64) ready) = some [0x31, 4, 0, 0] := by decide +kernel
theorem test_storeErase : ((after (.storeErase 1 0 63) { ready with sq := { window := none } }).fs.banks) =
    Vector.replicate 8 .busy := by decide +kernel
theorem test_storeBlank_down : (after (.storeBlank 1 0 3 9 1) ready).fs.queue.map (fun r => (r.page, r.offset, r.length)) =
    [(9, 0, 4096)] := by decide +kernel
theorem test_storeRead_long : sent (after (.storeRead 1 0 0 0 257) ready) = some [0x33, 4, 0, 0] := by decide +kernel
theorem test_storeMode : sent (after (.storeMode 1 0 1 16) ready) = some [0x34, 1, 1, 15] := by decide +kernel
theorem test_storeClear_busy : sent (after (.storeClear 1 0) (session78 { state := .checking })) = some [0x35, 6, 0, 0] := by
  decide +kernel
/-- Section 7.8's last case: ABORTED with 1 programmed and 2 discarded. -/
theorem test_storeAbort : (after (.storeAbort 1 0) (session78 {
      state := .programming, programmed := 1, discarded := 1, lockPending := true, buffer := [blankLine 2112 256] })).sq =
    { (session78 {}).sq with latest := some 0x36, programmed := 1, discarded := 2 } := by decide +kernel
theorem test_storeWindow_none : (after (.storeWindow 1 0 255 255) ready).sq.window = none := by decide +kernel
/-- R135: LOCKED is the sixth state; no lock pending; IN_USE and PROGRAM_FAIL are bits 2 and 3. -/
theorem test_storeQuery : (sent (after (.storeQuery 1 0) (session78 {
    state := .locked, latest := some 0x30, previous := some 0x30, kinds := { inUse := true, programFail := true } }))).map (·.take 6) = some [0x38, 5, 0, 12, 0x30, 0x30] := by decide +kernel
/-- Section 12.1, step 5: the first cut advances by the cut margin alone. -/
theorem test_filmCut : (after (.filmCut 1 0) ready).sa.lane = [.cut 1152] ∧ (after (.filmCut 1 0) ready).ex.state = .cutting := by
  decide +kernel
theorem test_exposeSet_clamps : (after (.exposeSet 1 0 [⟨1, 60000⟩, ⟨2, 1⟩, ⟨5, 0⟩]) ready).ex.values = [55296, 16, 4, 2, 1, 1152] := by
  decide +kernel
theorem test_exposeHold : (after (.exposeHold 1 0) ready).ex.state = .held ∧
    (after (.exposeHold 1 0) { ready with ex := { state := .cutting } }).ex.holdReq = true := by decide +kernel
/-- Section 12.6, step 7. -/
theorem test_exposeResume : (after (.exposeResume 1 0) { ready with ex :=
    { state := .faulted, registered := true, fault := ⟨some .timeout, 1, .line 2 7⟩ } }).ex = { state := .idle, registered := true } := by
  decide +kernel
/-- R152: UNREGISTERED, no hold request, no cut pending, no chosen line, not registered. -/
theorem test_exposeQuery : (sent (after (.exposeQuery 1 0) ready)).map (·.take 6) = some [0x44, 0, 0, 0, 255, 0] := by decide +kernel
/-- Section 10.9, step 4: POWER and LINE, count 1, erase of block 40 interrupted. -/
theorem test_status : (sent (after (.status 1 0) { ready with olu := { ready.olu with
    record := ⟨true, true, false, 1, .erase 40⟩ } })) =
    some ([0x50] ++ (ResetRecord.mk true true false 1 (.erase 40)).bytes ++ [0, 0, 0, 0, 0, 0, 0, 0, 0]) := by decide +kernel
theorem test_reset_order : (after .answerSent (after (.reset 1 0) ready)).olu = { phase := .startup, record := ⟨true, false, true, 1, .none⟩ } := by
  decide +kernel
theorem test_recordClear : (after (.recordClear 1 0) ready).olu.record = ⟨false, false, false, 0, .none⟩ := by decide +kernel

/-! ### Events: one step each -/

theorem test_powerOn : (after .powerOn { ready with time := 5 }).olu.phase = .startup ∧ (after .powerOn ready).fs.closing =
    Vector.replicate 8 true := by decide +kernel
/-- Section 10.9, step 1. -/
theorem test_resetLineAssert : (after .resetLineAssert { ready with sq := { state := .erasing, eraseBlock := some 40, eraseSent := true } }).olu.record =
    ⟨true, true, false, 1, .erase 40⟩ := by decide +kernel
/-- Section 10.9, step 2. -/
theorem test_resetLineRelease : (after .resetLineRelease (after .resetLineAssert ready)).olu.phase = .startup := by decide +kernel
/-- Section 10.9, step 3: RESET_DONE is sent. -/
theorem test_startupEnd : kinds (after .startupEnd { State.reset with fs := {} }) = [0xCA] := by decide +kernel
/-- A start-up with a close still awaited goes on. -/
theorem test_startupEnd_awaits : (after .startupEnd State.reset).olu.phase = .startup := by decide +kernel
theorem test_headerReceived : (after (.headerReceived (copyFrame.take 7)) ready).olu.receiver = .body 0x10 17 1 9 [] := by decide +kernel
/-- Section 10.9, step 4 of its second table: no frame store is free. -/
theorem test_headerReceived_overrun : (after (.headerReceived (copyFrame.take 7)) { ready with olu := { ready.olu with
    frames := [⟨0x50, 1, 0, [], true⟩], inHand := some ⟨0x33, 1, 0⟩ } }).olu.attentionLow = true := by decide +kernel
/-- R170: a start byte inside a failed header begins the next candidate. -/
theorem test_huntCandidate : (after (.huntCandidate ([0x00, 0xE5, 0x10] ++ copyFrame.take 7))
    { ready with olu := { ready.olu with receiver := .hunting [] } }).olu.receiver = .body 0x10 17 1 9 [] := by decide +kernel
theorem test_frameReceived_bad : (after (.frameReceived (copyFrame ++ [0, 0])) ready).olu.pulse = some 10 := by decide +kernel
theorem test_attentionPulseExpiry : (after .attentionPulseExpiry (after (.frameReceived (copyFrame ++ [0, 0])) ready)).olu.attentionLow =
    false := by decide +kernel
theorem test_dispatch_check : sent (after .dispatch (after (.frameReceived (copyFrame ++ [0, 0])) ready)) = some [0x10, 1, 0, 0] := by
  decide +kernel
theorem test_answerSent : (after .answerSent (after (.mapLock 1 0) ready)).linkFree := ⟨rfl, rfl, rfl, rfl⟩
/-- R177: the notice sent carries the lost-notice count in place of a tag. -/
theorem test_noticeSent : (after .noticeSent { ready with
    olu := { ready.olu with lost := 3, notices := [.faceRetired 3 0], sending := some ⟨0xC7, 0, 0, [1, 0]⟩ } }).olu.sending = some ⟨0xC7, 3, 0, [3, 0]⟩ := by decide +kernel
/-- Section 5.9, step 1. -/
theorem test_arbiterChoice : (after .arbiterChoice { withCh 0 { state := .pending } (withCh 2 { state := .pending } ready) with
    ce := { lastServed := 1 } }).ce.lastServed = 2 := by decide +kernel

/-- A composition of channel 1 that has passed its line-start test, with a copy of one END_LINE. -/
def lastUnit : State := { withCh 1 { buffer := [⟨.endLine, 17⟩], state := .composing } ready with
  ce := { comp := some { compAt {} (workAt .ltr 5) with spanLen := 1 } } }

/-- A channel of copy with faces 5 and 6 MOUNTED at positions 0 and 1, and face 5 in its context. -/
def twoFaces (us : List CopyUnit) : State :=
  withFace 6 ⟨.defined, 8, 1⟩ 1 { state := .mounted 6 } (withFace 5 ⟨.defined, 4, 1⟩ 0 { state := .mounted 5 }
    (withCh 1 { ctx := { face := 5 }, buffer := us.map (fun u => ⟨u, 17⟩), state := .pending } ready))

/-- R27, R28, R78: positions are used in order of first draw, whatever faces are named before it. -/
theorem test_arbiterChoice_firstDraw :
    let t := (after .arbiterChoice (twoFaces [.face 6, .char 65, .face 5, .char 65, .endLine])).readOn
    (t.ce.comp.map (·.used), t.fdm.pos[0].count, t.fdm.pos[1].count) = (some [1, 0], 1, 1) := by decide +kernel
/-- R27: a line that draws nothing holds no reference. -/
theorem test_lineDelivery_drawsNothing :
    let t := after .lineDelivery (after .arbiterChoice (twoFaces [.face 6, .endLine]))
    (t.ex.queued.map (·.line.used), t.fdm.pos[0].count, t.fdm.pos[1].count) = ([[]], 0, 0) := by decide +kernel

/-- R98, R16: the first line of a column stands one leading below its top. -/
theorem test_lineDelivery : (after .lineDelivery lastUnit).ex.queued.map (fun q => (q.line.header.baseline, q.line.header.marks)) =
    [(704, { last := true })] := by decide +kernel
/-- R38, R68: with neither the face nor its fallback to draw on, the channel is HELD with FACE. -/
theorem test_compositionAbandon : ((after .compositionAbandon (after .arbiterChoice (withCh 1 { state := .pending } ready))).ch[1]).state =
    .held .face := by decide +kernel
/-- Section 2.6, step 2: a count-0 MOUNTED position is taken where none is EMPTY or FAILED. -/
theorem test_mountLoadBegin : (after .mountLoadBegin { withFace 12 ⟨.defined, 64, 1⟩ 1 { state := .mounted 7 } ready with
    fdm := { (withFace 12 ⟨.defined, 64, 1⟩ 1 { state := .mounted 7 } ready).fdm with
      pos := setAt (Vector.replicate 8 { state := .mounted 3, count := 2 }) 1 { state := .mounted 7 }, requests := [⟨12, [1], false⟩] } }).fdm.load =
    some ⟨1, 12, some 7, none, 1⟩ := by decide +kernel

/-- The fetch queue of section 6.9, with O's bypass count. -/
def queue69 (count : Nat) : State := { ready with fs := {
  bypassLimit := 2, banks := setAt (Vector.replicate 8 .closed) 0 (.opened 5 (some 12)),
  queue := [fetchOf .strike 17 900 count, fetchOf .strike 40 600, fetchOf .mount 41 4096, fetchOf .link 48 256] } }

/-- Section 6.9, choice 1. -/
theorem test_fetchChoice_hit : (after .fetchChoice (queue69 0)).fs.path = .moving (fetchOf .strike 40 600) true ∧
    (after .fetchChoice (queue69 0)).fs.queue.map (·.bypass) = [1, 0, 0] := by decide +kernel
/-- Section 6.9, choice 3. -/
theorem test_fetchChoice_limit : (after .fetchChoice (queue69 2)).fs.path = .opening (fetchOf .strike 17 900 2) true := by decide +kernel
theorem test_fetchRequestEntry : (after .fetchRequestEntry { ready with fs := { held := [fetchOf .sequencer 3 256] } }).fs.queue =
    [fetchOf .sequencer 3 256] := by decide +kernel
theorem test_rowOpenDone : (after .rowOpenDone (after .fetchChoice (queue69 2))).fs.path = .moving (fetchOf .strike 17 900 2) true := by
  decide +kernel

/-- A transfer of one byte of page 40 for a STORE_READ of tag 5. -/
def linkRead : State := { ready with
  store := [(163840, 7)], time := 100,
  fs := { path := .moving { fetchOf .link 40 1 with ref := 5 } true, banks := setAt (Vector.replicate 8 .closed) 0 (.opened 5 none) } }

/-- R113, R131: STORE_DATA carries tag, page, offset, length and the byte. -/
theorem test_transferComplete : sent (after .transferComplete linkRead) = some [5, 0, 40, 0, 0, 0, 1, 7] := by decide +kernel
/-- R106: the deadline is 4·h µs after the completion. -/
theorem test_transferComplete_hold : (after .transferComplete linkRead).fs.banks[0] = .opened 5 (some 112) := by decide +kernel
theorem test_holdDeadlineExpiry : (after (.holdDeadlineExpiry 0) (queue69 0)).fs.banks[0] = .closed ∧
    (after (.holdDeadlineExpiry 0) (queue69 0)).time = 12 := by decide +kernel
theorem test_bankCloseDone : (after (.bankCloseDone 7) State.reset).fs.closing[7] = false := by decide +kernel
/-- Section 7.8, step 5. -/
theorem test_programLineDone : (after .programLineDone (session78 {
      state := .programming, step := .sent, buffer := [⟨2112, 0, List.replicate 256 1⟩, blankLine 2112 256] })).sq =
    (session78 { state := .programming, programmed := 1, buffer := [blankLine 2112 256] }).sq := by decide +kernel
/-- R137: a session that ends reports itself. -/
theorem test_programLineDone_last : kinds (after .programLineDone (session78 {
      state := .programming, step := .sent, buffer := [blankLine 2112 0] })) = [0xC8] := by decide +kernel
/-- Section 12.4, step 3. -/
theorem test_erasePaused : (after .erasePaused { ready with
    fs := { banks := Vector.replicate 8 .busy, queue := [fetchOf .mount 128 4096] },
    sq := { state := .erasing, eraseBlock := some 40, eraseSent := true, suspendAwaited := true, suspendCount := 1 } }).sq.state =
    .eraseSuspended := by
  show (State.settle _).sq.state = _
  rfl
/-- Section 12.4, step 8. -/
theorem test_eraseDone : (after .eraseDone { ready with
    sq := { state := .erasing, eraseBlock := some 40, eraseSent := true, suspendCount := 2 } }).olu.sending.map (·.body) =
    some [2, 0, 0, 40, 2, 0, 0, 0, 0, 0, 0] := rfl

/-- Section 8.10 with a film position, high-water mark, calibration counter and queue. -/
def film810 (film high counter : Nat) (queued : List QueuedLine) : State := { ready with ex :=
  { state := .idle, registered := true, film := film, high := high, reach := 3000, bypassLimit := 1, counter := counter,
    lastChannel := some 0, queued := queued } }

/-- Section 8.10, step 1. -/
theorem test_filmArbiter_nearest :
    let t := after .filmArbiter (film810 0 0 255 [queuedAt 0 1 4000, queuedAt 1 0 1000, queuedAt 2 0 1704, queuedAt 3 1 4704])
    (t.ex.film, t.ex.high, t.ex.queued.map (·.bypass)) = (1000, 1000, [1, 0, 0]) := by decide +kernel
/-- Section 8.10, step 2. -/
theorem test_filmArbiter_calibrates :
    let t := after .filmArbiter (film810 1000 1000 256 [queuedAt 0 1 4000 1, queuedAt 2 0 1704, queuedAt 3 1 4704])
    (t.ex.state, t.ex.chosen, t.sa.lane) = (.calibrating, some { slot := 0 }, [.calibrate]) := by decide +kernel
theorem test_recordSent_timer : (after .recordSent { ready with time := 7, ex := { state := .cutting }, sa := { lane := [.cut 9] } }).ex.timer =
    some 2000007 := by decide +kernel
theorem test_recordSent_free : (after .recordSent { ready with
    sa := { lane := [.lineEnd], assembly := some { list := [] }, buffers := Vector.replicate 8 (.filled 0 [] false) } }).sa = {} := by decide +kernel
/-- R157, section 11.8: LINE_BEGIN with tag 17 and travel +704 is 61h 11h 00h 00h 02h C0h; each byte is presented until it is
acknowledged. -/
theorem test_lane_presents : ([0, 1, 4, 5].map (fun n => ({ lane := [.lineBegin 17 704], acked := n } : Sa).presented)) =
    [some 0x61, some 0x11, some 0x02, some 0xC0] ∧ ({} : Sa).strobeHigh = false := by decide +kernel
/-- R157: of a LINE_BEGIN's six bytes three are acknowledged, and then all but the last, however long the unit is given. -/
theorem test_gone : (gone 6 0 3, gone 6 3 9) = (3, 5) := by decide
/-- Section 11.2: the answer to MAP_LOCK under tag 1, E5h 80h 01h 00h 00h 02h and the rest, after two and five bytes; R179: a reset
cuts it off. -/
theorem test_return_bytes : let s := after (.mapLock 1 0) ready
    ([0, 2, 5].map (fun n => ({ s.olu with sent := n } : Olu).txByte)) = [some 0xE5, some 0x01, some 0x02] ∧
    (after .resetLineAssert { s with olu := { s.olu with sent := 5 } }).olu.txByte = none := by decide +kernel
/-- R157, R158: the last byte's acknowledgement brings the first byte of the next record. -/
theorem test_recordSent_presents : (after .recordSent { ready with sa := { lane := [.lineBegin 17 704, .lineEnd], acked := 5 } }).sa.presented =
    some 0x64 := by decide +kernel
/-- R166: a fault withdraws the byte awaiting its acknowledgement. -/
theorem test_unitFault_withdraws : (after (.unitFault 1) { ready with
    ex := { state := .exposing, exposing := some (exposingAt 3 0 1000) },
    sa := { lane := [.lineBegin 17 704], acked := 2, assembly := some { list := [] } } }).sa = {} := by decide +kernel
/-- R147: the DONE of an exposure. -/
theorem test_unitDone : (after .unitDone { ready with
    ex := { state := .exposing, exposing := some (exposingAt 3 0 1000), timer := some 9, counter := 255 } }).ex = { state := .idle, counter := 256, lastChannel := some 0 } := by decide +kernel
/-- R149: the DONE of a cut. -/
theorem test_unitDone_cut : (after .unitDone { ready with ex := { state := .cutting, film := 900, high := 900, timer := some 9 } }).ex =
    { state := .idle, registered := true, pageCount := 1 } := by decide +kernel
/-- R154: a TRANSPORT report unregisters the film. -/
theorem test_unitFault : (after (.unitFault 2) { ready with ex := { state := .idle, registered := true } }).ex =
    { state := .faulted, fault := ⟨some .transport, 1, .none⟩ } := by decide +kernel
/-- Section 12.6, step 5: LINE_LOST, then EXPOSE_FAULT. -/
theorem test_exposureTimeout : kinds (after .exposureTimeout { ready with
    ex := { state := .exposing, registered := true, exposing := some (exposingAt 3 2 1000), timer := some 9 } }) = [0xC2, 0xC3] := by decide +kernel
theorem test_unknownReturnByte : (after (.unknownReturnByte 0x70) ready).sa.returnPartial = false := by decide +kernel
/-- A command that does not lie at the front waits. -/
theorem test_step : (match step { ready with pending := [.mapLock 1 0, .powerOn] } with
    | .next t => (t.fdm.lock, t.pending)
    | _ => (false, [])) = (true, [.powerOn]) := by decide +kernel
/-- R103: a transfer of bytes that do not exist stops the model (log entry 35). -/
theorem test_noSuchBytes : (match exec .transferComplete { ready with fs := { path := .moving (fetchOf .link 4096 1) true } } with
    | .fault .noSuchBytes => true
    | _ => false) = true := by decide +kernel

/-! ### Witnesses: for each statement of Obligations.lean, states and operands that meet its hypotheses, clause by clause -/

/-- The part with one frame waiting. -/
def oneWaits : State := { ready with olu := { ready.olu with frames := [⟨0x50, 1, 0, [], true⟩] } }

/-- The part with one order in hand. -/
def oneInHand : State := { ready with olu := { ready.olu with inHand := some ⟨0x33, 1, 0⟩ } }

/-- No command waits: the lane and the transmitter are idle, or the last of a CUT's five bytes and of a notice's eleven is in progress. -/
theorem witness_StepRunsFrontCommand_idle : ready.pending = [] ∧ ready.sa.lane = [] ∧ ready.olu.sending = none ∧
    (OutRecord.cut 9).bytes.length = 5 ∧ ({ lane := [.cut 9], acked := 4 } : Sa).acked < 5 ∧
    (Return.bytes ⟨0xC7, 0, 0, [1, 0]⟩).length = 11 ∧ ({ sending := some ⟨0xC7, 0, 0, [1, 0]⟩, sent := 10 } : Olu).sent < 11 := by
  decide +kernel
theorem witness_StepRunsFrontCommand : ({ ready with pending := [.powerOn, .dispatch] } : State).pending = .powerOn :: [.dispatch] := rfl

theorem witness_OrderBodiesDecodeAndEncode : decodeOrder 0x12 [0, 63, 255, 255] = .ok (.column 4194303) := by decide +kernel

theorem witness_GoodFrameIsTakenWhole : oneWaits.olu.phase = .running ∧ oneWaits.olu.receiver = .waiting ∧
    oneWaits.olu.storesOccupied < 2 ∧ (List.replicate 1536 (0 : Byte)).length ≤ 1536 := by decide +kernel

theorem witness_HeaderOpensBodyOrHunt_body : oneWaits.olu.receiver = .waiting ∧
    (0x10 : Byte) + 0x11 + 0x01 + 0x06 + 0x00 + 0xD8 = 0 ∧ (word 0x06 0x00).toNat = 1536 ∧ oneWaits.olu.storesOccupied < 2 := by
  decide +kernel
theorem witness_HeaderOpensBodyOrHunt_empty :
    ({ ready with olu := { ready.olu with receiver := .hunting [] } } : State).olu.receiver = .hunting [] ∧
    (0x50 : Byte) + 0x01 + 0x00 + 0x00 + 0x00 + 0xAF = 0 ∧ (word 0x00 0x00).toNat = 0 := by decide +kernel
theorem witness_HeaderOpensBodyOrHunt_hunt : (0x10 : Byte) + 0x11 + 0x01 + 0x06 + 0x01 + 0xD7 = 0 ∧
    ¬ (word 0x06 0x01).toNat ≤ 1536 := by decide +kernel

theorem witness_BodyFailureStartsAttentionPulse :
    (let s : State := { ready with olu := { ready.olu with receiver := .body 0x13 1 0 1 [7, 0] } }
     s.olu.phase = .running ∧ s.olu.receiver = .body 0x13 1 0 1 [7, 0] ∧ ([7, 0] : Bytes).length = 1 + 1 ∧
       u16 (bodyCheck (([7, 0] ++ [0] : Bytes).take 1)).toNat ≠ ([7, 0] ++ [0] : Bytes).drop 1) ∧
    ({ ready with olu := { ready.olu with pulse := some 10 } } : State).olu.pulse = some 10 := by decide +kernel

theorem witness_DispatchTestsTheOldestFrame : oneWaits.olu.phase = .running ∧ oneWaits.olu.inHand = none ∧
    oneWaits.olu.frames = ⟨0x50, 1, 0, [], true⟩ :: [] ∧ decodeOrder 0x50 [] = .ok .status ∧
    (Order.status.formOk && Order.status.targetOk 0) = true := by decide +kernel
theorem witness_DispatchTestsTheOldestFrame_refusals : decodeOrder 0x53 [] = .error .unknown ∧ decodeOrder 0x50 [0] = .error .form ∧
    decodeOrder 0x10 [] = .ok (.copy []) ∧ ((Order.copy []).formOk && (Order.copy []).targetOk 0) = false ∧
    (⟨0x50, 1, 0, [], false⟩ : Frame).checkOk = false := by decide +kernel

theorem witness_OrderOnFreeLinkIsActedOn : ready.linkFree ∧ Sys2Proof.orderOf (.release 1 3) = some (1, 3, .release) ∧
    (Order.release.formOk && Order.release.targetOk 3) = true := ⟨ready_free, rfl, rfl⟩
theorem witness_OrderOnFreeLinkIsActedOn_form : Sys2Proof.orderOf (.status 1 1) = some (1, 1, .status) ∧
    (Order.status.formOk && Order.status.targetOk 1) = false ∧ Order.status.body.length ≤ 1536 := by decide +kernel

theorem witness_OrderCommandIsItsFrame : Sys2Proof.orderOf (.status 1 0) = some (1, 0, .status) ∧ oneWaits.olu.phase = .running ∧
    oneWaits.olu.receiver = .waiting ∧ oneWaits.olu.storesOccupied < 2 ∧ Order.status.body.length ≤ 1536 ∧
    oneWaits.olu.frames ≠ [] := by decide +kernel
theorem witness_OrderCommandIsItsFrame_inHand : oneInHand.olu.phase = .running ∧ oneInHand.olu.receiver = .waiting ∧
    oneInHand.olu.storesOccupied < 2 ∧ oneInHand.olu.inHand ≠ none := by decide +kernel

/-- Channel 3 with a number of units in its buffer. -/
def filled (n : Nat) : State := withCh 3 { buffer := List.replicate n ⟨.space, 0⟩ } ready

theorem witness_CopyAppendsItsUnits : (filled 4095).linkFree ∧ decodeUnits 0 [⟨2, 0⟩] = .ok [.space] ∧
    (filled 4095).ch[(3 : Fin 4)].state = .idle ∧ ([CopyUnit.space]).length ≤ 4096 - (filled 4095).ch[(3 : Fin 4)].buffer.length :=
  ⟨⟨rfl, rfl, rfl, rfl⟩, rfl, rfl, by decide +kernel⟩
theorem witness_CopyAppendsItsUnits_longest : (List.replicate 512 (⟨2, 0⟩ : RawUnit)).length ≤ 512 ∧
    (decodeUnits 0 (List.replicate 512 ⟨2, 0⟩)).isOk = true := by decide +kernel
theorem witness_CopyRefusedAppendsNothing : 4 ≤ (4 : Byte).toNat ∧ (3 : Byte).toNat < 4 ∧ decodeUnits 0 [⟨1, 65⟩, ⟨13, 0⟩] = .error 1 ∧
    (withCh 3 { state := .held .face } ready).ch[(3 : Fin 4)].state = .held .face ∧ (3 : Byte) = chByte 3 := by decide +kernel
theorem witness_CopyRefusedAppendsNothing_full : (filled 4096).ch[(3 : Fin 4)].state = .idle ∧
    4096 - (filled 4096).ch[(3 : Fin 4)].buffer.length < ([CopyUnit.space]).length := ⟨rfl, by decide +kernel⟩

theorem witness_ChannelSetAppliesOrPends : channelFieldsOk [⟨19, 0⟩] = false ∧ channelFieldsOk [⟨1, 55297⟩] = true ∧
    ready.ch[(0 : Fin 4)].state ≠ .composing ∧ (withCh 2 { state := .composing } ready).ch[(2 : Fin 4)].state = .composing := by
  decide +kernel
theorem witness_ChannelSetAppliesOrPends_ranges : SettingLaw ready ∧ ready.ch[(3 : Fin 4)].state ≠ .composing :=
  ⟨by unfold SettingLaw Context.inRange; decide +kernel, by decide +kernel⟩
theorem witness_ChannelSetAppliesOrPends_longest : channelFieldsOk
    ((List.range 18).map (fun i => ⟨BitVec.ofNat 8 (i + 1), 1⟩)) = true := by decide +kernel

theorem witness_ChannelSetAppliesOrPends_range : ready.linkFree ∧ 4 ≤ (4 : Byte).toNat ∧ 4 ≤ (255 : Byte).toNat :=
  ⟨ready_free, by decide⟩

theorem witness_ColumnAndReleaseActOnTheChannel_range : ready.linkFree ∧ 4 ≤ (4 : Byte).toNat := ⟨ready_free, by decide⟩
theorem witness_ColumnAndReleaseActOnTheChannel : ready.ch[(0 : Fin 4)].state ≠ .composing ∧
    (withCh 3 { state := .composing } ready).ch[(3 : Fin 4)].state = .composing ∧
    (withCh 3 { state := .held .reach } ready).ch[(3 : Fin 4)].state = .held .reach := by decide +kernel
theorem witness_ColumnAndReleaseActOnTheChannel_notHeld : ∀ why, ready.ch[(0 : Fin 4)].state ≠ .held why :=
  fun _ h => by cases (show ChannelState.idle = .held _ from h)

/-- Face 5 DEFINED and not mounted, with a request list and one content for all positions. -/
def wanting (m : MountPos) (rs : List MountReq) : State :=
  { ready with fdm := { dir := setAt (Vector.replicate 128 {}) 5 ⟨.defined, 4095, 1⟩, pos := Vector.replicate 8 m, requests := rs } }

theorem witness_CancelEmptiesTheChannel : lastUnit.linkFree ∧ lastUnit.ce.comp = some { compAt {} (workAt .ltr 5) with spanLen := 1 } :=
  ⟨⟨rfl, rfl, rfl, rfl⟩, rfl⟩
theorem witness_CancelEmptiesTheChannel_other : ready.ce.comp = none ∧
    ({ compAt {} (workAt .ltr 5) with spanLen := 1 } : Composition).channel ≠ 0 := by decide +kernel

/-- R30, R70: the channel leaves its request, which leaves the list with its last channel, and stays when a MOUNT order has joined. -/
theorem witness_CancelEmptiesTheChannel_waits :
    (let s (byOrder : Bool) := withCh 3 { state := .mountWait } (wanting {} [⟨5, [3], byOrder⟩, ⟨6, [0], false⟩])
     (s false).ch[(3 : Fin 4)].state = .mountWait ∧ (after (.cancel 1 3) (s false)).fdm.requests = [⟨6, [0], false⟩] ∧
       (after (.cancel 1 3) (s true)).fdm.requests = [⟨5, [], true⟩, ⟨6, [0], false⟩]) := by decide +kernel

/-- A composition of channel 1 with pending changes, and a chosen line of it, that hold the two last references to a WITHDRAWING face's
position. -/
def lastTwoUsers : State :=
  { withFace 5 ⟨.withdrawing, 4095, 1⟩ 7 { state := .mounted 5, count := 2 } lastUnit with
    ch := setAt lastUnit.ch 1 { lastUnit.ch[1] with pendCol := some 4194303, pendSet := [(.paraDir, 1), (.track, 200)] },
    ce := { comp := some { compAt {} (workAt .ltr 5) with spanLen := 1, used := [7] } },
    ex := { state := .calibrating, chosen := some { slot := 15 }, queued := [⟨15, { lineAt 1 704 with used := [7] }, 0⟩] } }

theorem witness_CancelEmptiesTheChannel_retires :
    lastTwoUsers.fdm.pos[(7 : Fin 8)].count ≤ ([7] ++ [7] : List (Fin 8)).count 7 ∧
    lastTwoUsers.fdm.pos[(7 : Fin 8)].state.face = some 5 ∧ lastTwoUsers.fdm.dir[(5 : Fin 128)].state = .withdrawing ∧
    (∀ p : Fin 8, lastTwoUsers.fdm.pos[p].state.face = some 5 → p = 7) ∧
    (let t := after (.cancel 1 1) lastTwoUsers
     sent t = some [0x13, 0, 1, 1, 1, 0] ∧ t.olu.notices = [.faceRetired 5 7] ∧ t.ex.chosen = some ⟨15, true⟩ ∧
       (t.ch[(1 : Fin 4)].next, t.ch[(1 : Fin 4)].ctx.track, t.ch[(1 : Fin 4)].runDir, t.ch[(1 : Fin 4)].state) =
         (4194303, 200, .rtl, .idle)) := by decide +kernel

theorem witness_CancelEmptiesTheChannel_range : ready.linkFree ∧ 4 ≤ (4 : Byte).toNat := ⟨ready_free, by decide⟩

theorem witness_QueriesChangeNothing_range : ready.linkFree ∧ 4 ≤ (4 : Byte).toNat := ⟨ready_free, by decide⟩
theorem witness_QueriesChangeNothing : ready.linkFree ∧ 128 ≤ (128 : Byte).toNat ∧ (254 : Byte).toNat ≤ 254 :=
  ⟨ready_free, by decide, by decide⟩
theorem witness_StatusReportsAndChangesNothing : ready.linkFree := ready_free

theorem witness_FaceDefineTestsThenDefines : ready.linkFree ∧ ready.fdm.lock = false ∧ (127 : Byte).toNat < 128 ∧
    (1024 : Word).toNat = 2 ^ 10 ∧ (3072 : Word).toNat < 4096 ∧ (3072 : Word).toNat % (1024 : Word).toNat = 0 ∧
    ready.fdm.dir[(127 : Fin 128)].state = .undefined ∧ (∀ g : Fin 128, ready.fdm.dir[g].state = .undefined) :=
  ⟨ready_free, by decide +kernel⟩
/-- The part with the map lock set. -/
def lockedMap : State := { ready with fdm := { ready.fdm with lock := true } }

/-- The part with face 5 DEFINED over the last page, and a position's content. -/
def face5 (m : MountPos) : State := withFace 5 ⟨.defined, 4095, 1⟩ 7 m ready

theorem witness_FaceDefineTestsThenDefines_refusals : lockedMap.fdm.lock = true ∧ ¬ (128 : Byte).toNat < 128 ∧
    (face5 {}).fdm.dir[(5 : Fin 128)].state ≠ .undefined ∧
    overlaps 3072 1024 (face5 {}).fdm.dir[(5 : Fin 128)].base (face5 {}).fdm.dir[(5 : Fin 128)].size = true := by decide +kernel

theorem witness_FaceWithdrawDefersOrRetires : (face5 { state := .loading 5 }).linkFree ∧ (face5 { state := .loading 5 }).fdm.lock = false ∧
    (face5 { state := .loading 5 }).fdm.dir[(5 : Fin 128)].state = .defined ∧ (face5 { state := .loading 5 }).fdm.posOf 5 = some 7 ∧
    (face5 { state := .loading 5 }).fdm.pos[(7 : Fin 8)].state = .loading 5 := ⟨⟨rfl, rfl, rfl, rfl⟩, by decide +kernel⟩
theorem witness_FaceWithdrawDefersOrRetires_used : (face5 { state := .mounted 5, count := 1 }).fdm.posOf 5 = some 7 ∧
    (face5 { state := .mounted 5, count := 1 }).fdm.pos[(7 : Fin 8)].count ≠ 0 := by decide +kernel
theorem witness_FaceWithdrawDefersOrRetires_now : (face5 { state := .mounted 5 }).fdm.posOf 5 = some 7 ∧
    (face5 { state := .mounted 5 }).fdm.pos[(7 : Fin 8)].state ≠ .loading 5 ∧
    (face5 { state := .mounted 5 }).fdm.pos[(7 : Fin 8)].count = 0 ∧ (∀ q ∈ (face5 { state := .mounted 5 }).fdm.requests, q.face ≠ 5) := by
  decide +kernel
theorem witness_FaceWithdrawDefersOrRetires_none : (face5 {}).fdm.posOf 5 = none ∧ (∀ q ∈ (face5 {}).fdm.requests, q.face ≠ 5) := by
  decide +kernel

theorem witness_FaceWithdrawDefersOrRetires_refusals : ready.linkFree ∧ ready.fdm.lock = false ∧ 128 ≤ (128 : Byte).toNat ∧
    ready.fdm.dir[(127 : Fin 128)].state ≠ .defined ∧
    (withFace 5 ⟨.withdrawing, 4095, 1⟩ 7 { state := .loading 5 } ready).fdm.dir[(5 : Fin 128)].state ≠ .defined :=
  ⟨ready_free, by decide +kernel⟩

theorem witness_MapLockSetsAndProtects : ready.linkFree ∧ lockedMap.linkFree ∧ lockedMap.fdm.lock = true :=
  ⟨ready_free, ⟨rfl, rfl, rfl, rfl⟩, rfl⟩

theorem witness_FaceWithdrawDefersOrRetires_waiting : (wanting {} [⟨5, [0], false⟩]).linkFree ∧
    (wanting {} [⟨5, [0], false⟩]).fdm.lock = false ∧ (wanting {} [⟨5, [0], false⟩]).fdm.dir[(5 : Fin 128)].state = .defined ∧
    (wanting {} [⟨5, [0], false⟩]).fdm.posOf 5 = none ∧
    (wanting {} [⟨5, [0], false⟩]).fdm.requests.find? (fun r => r.face == 5) = some ⟨5, [0], false⟩ ∧
    (wanting { state := .failed 5 .check } [⟨5, [0], false⟩]).fdm.posOf 5 = some 0 ∧
    (wanting { state := .failed 5 .check } [⟨5, [0], false⟩]).fdm.pos[(0 : Fin 8)].count = 0 :=
  ⟨⟨rfl, rfl, rfl, rfl⟩, by decide +kernel⟩

theorem witness_MountAnswersByTheFaceState_refusals : ready.linkFree ∧ 128 ≤ (128 : Byte).toNat ∧
    ready.fdm.dir[(127 : Fin 128)].state ≠ .defined := ⟨ready_free, by decide +kernel⟩
theorem witness_MountAnswersByTheFaceState : (face5 { state := .mounted 5 }).linkFree ∧
    (face5 { state := .mounted 5 }).fdm.dir[(5 : Fin 128)].state = .defined ∧ (face5 { state := .mounted 5 }).fdm.posOf 5 = some 7 ∧
    (face5 { state := .mounted 5 }).fdm.pos[(7 : Fin 8)].state = .mounted 5 := ⟨⟨rfl, rfl, rfl, rfl⟩, by decide +kernel⟩
theorem witness_MountAnswersByTheFaceState_joined : (wanting {} [⟨5, [0], false⟩]).fdm.mountedAt 5 = none ∧
    (∃ q ∈ (wanting {} [⟨5, [0], false⟩]).fdm.requests, q.face = 5) := by decide +kernel
theorem witness_MountAnswersByTheFaceState_queued : (wanting {} []).linkFree ∧ (wanting {} []).fdm.mountedAt 5 = none ∧
    (wanting {} []).fdm.orderWaiting = false ∧ (wanting {} []).fdm.choose 5 ≠ none ∧ (wanting {} []).fdm.requests = [] ∧
    (wanting { state := .failed 5 .check } []).fdm.hasFailed 5 = true := ⟨⟨rfl, rfl, rfl, rfl⟩, by decide +kernel⟩
theorem witness_MountAnswersByTheFaceState_busy :
    (wanting { state := .mounted 6, count := 1 } []).fdm.choose 5 = none ∧
    (wanting { state := .mounted 6, count := 1 } []).fdm.hasFailed 5 = false ∧
    (wanting {} [⟨6, [], true⟩]).fdm.orderWaiting = true ∧ (∀ q ∈ (wanting {} [⟨6, [], true⟩]).fdm.requests, q.face ≠ 5) := by
  decide +kernel

theorem witness_LoadBeginsInTheChosenPosition : (wanting {} [⟨5, [0], false⟩]).fdm.load = none ∧
    (wanting {} [⟨5, [0], false⟩]).fdm.requests = ⟨5, [0], false⟩ :: [] ∧
    (wanting {} [⟨5, [0], false⟩]).fdm.choose 5 = some 0 := by decide +kernel
/-- R29: each case of the choice, at the last position, with the position it yields; and no case. -/
theorem witness_LoadBeginsInTheChosenPosition_order :
    (let s (m m7 : MountPos) : State := { wanting m [⟨5, [0], false⟩] with
       fdm := { (wanting m [⟨5, [0], false⟩]).fdm with pos := setAt (Vector.replicate 8 m) 7 m7 } }
     let used : MountPos := { state := .mounted 6, count := 1 }
     (∀ x : Fin 8, x < 7 → (s {} { state := .failed 5 .check }).fdm.pos[x].state = .empty) ∧
       ((after .mountLoadBegin (s {} { state := .failed 5 .check })).fdm.load.map (·.pos)) = some 7 ∧
       (∀ x : Fin 8, x < 7 → (s { state := .failed 6 .check } {}).fdm.pos[x].state = .failed 6 .check) ∧
       ((after .mountLoadBegin (s { state := .failed 6 .check } {})).fdm.load.map (·.pos)) = some 7 ∧
       ((after .mountLoadBegin (s { state := .mounted 6 } { state := .failed 6 .check })).fdm.load.map (·.pos)) = some 7 ∧
       (s used used).fdm.recency = [0, 1, 2, 3, 4, 5, 6] ++ 7 :: [] ∧
       ((after .mountLoadBegin (s used { state := .mounted 6 })).fdm.load.map (·.pos)) = some 7 ∧
       (∀ x : Fin 8, (s used used).fdm.pos[x].count ≠ 0) ∧ (after .mountLoadBegin (s used used)).fdm.load = none) := by
  decide +kernel
theorem witness_LoadBeginsInTheChosenPosition_loading :
    (let d : Fdm := { (wanting {} [⟨5, [1], false⟩]).fdm with load := some ⟨7, 9, none, none, 1⟩ }
     d.load ≠ none ∧ d.requests = ⟨5, [1], false⟩ :: []) := by decide +kernel
theorem witness_LoadBeginsInTheChosenPosition_evicts : (wanting { state := .mounted 6 } []).fdm.choose 5 = some 0 := by decide +kernel

theorem witness_FetchSetSetsTheScheduler : ready.linkFree ∧ fieldsOk 2 [⟨1, 16⟩, ⟨2, 15⟩] = true ∧ fieldsOk 2 [⟨3, 0⟩] = false ∧
    fieldsOk 2 [⟨1, 0⟩, ⟨1, 0⟩] = false := ⟨ready_free, by decide⟩

/-- The queue of section 6.9 with every bank in one state. -/
def queue69in (count : Nat) (b : Bank) : State := { queue69 count with fs := { (queue69 count).fs with banks := Vector.replicate 8 b } }

theorem witness_FetchChoiceServesByAgeAndHits_limit : (queue69 2).fs.path = .free ∧ (queue69 2).fs.bypassLimit ≤ 2 ∧
    (queue69 2).fs.isBusy (fetchOf .strike 17 900 2) = false ∧ (queue69in 2 .busy).fs.isBusy (fetchOf .strike 17 900 2) = true := by
  decide +kernel
theorem witness_FetchChoiceServesByAgeAndHits_hit : (1 : Nat) < (queue69 1).fs.bypassLimit ∧
    (queue69 1).fs.queue = [fetchOf .strike 17 900 1] ++ fetchOf .strike 40 600 :: [fetchOf .mount 41 4096, fetchOf .link 48 256] ∧
    (∀ x ∈ [fetchOf .strike 17 900 1], (queue69 1).fs.isHit x = false) ∧ (queue69 1).fs.isHit (fetchOf .strike 40 600) = true := by
  decide +kernel
theorem witness_FetchChoiceServesByAgeAndHits_free : (∀ x ∈ (queue69in 0 .closed).fs.queue, (queue69in 0 .closed).fs.isHit x = false) ∧
    (queue69in 0 .closed).fs.isBusy (fetchOf .strike 17 900) = false ∧
    (∀ x ∈ (queue69in 0 .busy).fs.queue, (queue69in 0 .busy).fs.isBusy x = true) := by decide +kernel

/-- A transfer of the last byte of the store for a STORE_READ. -/
def lastByte : State := { ready with fs := { path := .moving ⟨.link, 4095, 4095, 1, 5, 0⟩ true } }

theorem witness_TransferDeliversTheBytes :
    ({ ready with fs := { path := .opening (fetchOf .link 40 1) true } } : State).fs.path = .opening (fetchOf .link 40 1) true ∧
    lastByte.fs.path = .moving ⟨.link, 4095, 4095, 1, 5, 0⟩ true ∧ 4095 < 4096 ∧ 4095 + 1 ≤ 4096 ∧ lastByte.sq.state = .idle ∧
    lastByte.fs.banks[bankOf 4095] ≠ .busy ∧ lastByte.fs.hold ≠ 0 := by decide +kernel

/-- Bytes laid from an address on. -/
def cells : Nat → Bytes → List Host.Cell
  | _, [] => []
  | a, b :: bs => (a, b) :: cells (a + 1) bs

/-- A transfer about to complete, of bytes that stand in the store. -/
def moving (r : FetchReq) (data : Bytes) (s : State) : State :=
  { s with store := cells (4096 * r.page + r.offset) data, fs := { s.fs with path := .moving r true } }

/-- The last byte of the store on its way, wanted or withdrawn, with a sequencer, a hold interval and a content of its bank. -/
def lastByteIn (q : Sq) (wanted : Bool) (hold : Nat) (b : Bank) : State :=
  { lastByte with sq := q, fs := { lastByte.fs with path := .moving ⟨.link, 4095, 4095, 1, 5, 0⟩ wanted, hold := hold,
                                                    banks := Vector.replicate 8 b } }

/-- R106: a hold interval of 0 closes the row at the completion. -/
theorem witness_TransferDeliversTheBytes_hold : (lastByteIn {} true 0 .closed).fs.hold = 0 ∧
    (lastByteIn {} true 0 .closed).fs.banks[bankOf 4095] ≠ .busy ∧
    (after .transferComplete (lastByteIn {} true 0 (.opened 511 none))).fs.closing[(7 : Fin 8)] = true := by decide +kernel
/-- R107: an erase, and a line, that waited for the transfer; their banks are BUSY. -/
theorem witness_TransferDeliversTheBytes_waiting :
    (let s := lastByteIn { state := .erasing, eraseBlock := some 63 } true 3 .busy
     s.sq.state = .erasing ∧ s.fs.banks[bankOf 4095] = .busy ∧ (after .transferComplete s).sq.eraseSent = true) ∧
    (let s := lastByteIn { state := .programming, step := .claimed, buffer := [blankLine 4095 0] } false 3 .busy
     s.sq.step = .claimed ∧ (FetchReq.requester ⟨.link, 4095, 4095, 1, 5, 0⟩ ≠ .sequencer)) := by decide +kernel
/-- R112, R128: the last fetch of a suspended erase, and one that is not the last. -/
theorem witness_TransferDeliversTheBytes_suspended :
    (after .transferComplete (lastByteIn { state := .eraseSuspended, eraseBlock := some 63, eraseSent := true } true 3 .closed)).sq.state =
      .erasing ∧
    ({ queue := [fetchOf .link 40 1] } : Fs).isIdle = false := by decide +kernel

/-- A line's pre-program read of a byte about to be delivered. -/
def lineRead (page : Nat) (b : Byte) : State :=
  moving (fetchOf .sequencer page 256) (if b = 255 then [] else [b])
    (session78 { state := .programming, buffer := [blankLine page 0] })

theorem witness_TransferDeliversTheBytes_notBlank : (lineRead 2112 254).sq.state = .programming ∧ (lineRead 2112 254).sq.step = .read ∧
    (lineRead 2112 254).sq.buffer = blankLine 2112 0 :: [] ∧
    ¬ (∀ b ∈ readBytes (lineRead 2112 254).store (4096 * 2112) 256, b = 255) := by decide +kernel
theorem witness_TransferDeliversTheBytes_blank : (∀ b ∈ readBytes (lineRead 2112 255).store (4096 * 2112) 256, b = 255) ∧
    (lineRead 2047 255).sq.windowed (2047 / 64) = true ∧ (lineRead 2048 255).sq.windowed (2048 / 64) = false ∧
    (lineRead 2048 255).fdm.protects 2048 1 = true ∧ (lineRead 2112 255).sq.windowed (2112 / 64) = false ∧
    (lineRead 2112 255).fdm.protects 2112 1 = false := by decide +kernel

/-- The last bytes of the last page of a blank check on their way. -/
def lastPage (b : Byte) (down : Bool) : State :=
  { session78 { state := .checking, check := some ⟨4094, 4095, down, 4095⟩ } with
    store := if b = 255 then [] else [(16777215, b)], fs := { path := .moving ⟨.sequencer, 4095, 4092, 4, 0, 0⟩ true } }

theorem witness_TransferDeliversTheBytes_found : (lastPage 7 false).sq.check = some ⟨4094, 4095, false, 4095⟩ ∧
    (lastPage 7 false).sq.state = .checking ∧ readBytes (lastPage 7 false).store 16777212 4 = [255, 255, 255] ++ 7 :: [] ∧
    (7 : Byte) ≠ 255 := by decide +kernel
theorem witness_TransferDeliversTheBytes_found_down : readBytes (lastPage 7 true).store 16777212 4 = [255, 255, 255] ++ 7 :: [] ∧
    (∀ b ∈ ([] : Bytes), b = 255) := by decide +kernel
theorem witness_TransferDeliversTheBytes_allBlank : (∀ b ∈ readBytes (lastPage 255 false).store 16777212 4, b = 255) ∧
    (4095 : Nat) ≠ 4094 := by decide +kernel

/-- A master's bytes on their way to buffer 7, for the only STRIKE of a line. -/
def masterRead (data : Bytes) (glyph : Nat) (again : Bool) : State :=
  moving { requester := .strike, page := 4095, offset := 4091, length := 5, ref := 7 } data { ready with
    sa := { assembly := some { list := [{ extend := false, x := 0, size := 40, setw := 40, pos := 0, glyph := glyph }], fetchPoint := 1 },
            buffers := setAt (Vector.replicate 8 .free) 7 (.fetching 0 again) } }

theorem witness_TransferDeliversTheBytes_master : masterPasses (readBytes (masterRead [0, 1, 0, 1, 1] 3 false).store 16777211 5) = true ∧
    (masterRead [0, 1, 0, 1, 1] 3 false).sa.buffers[(Fin.ofNat 8 7 : Fin 8)] = .fetching 0 false ∧
    (masterRead [0, 1, 0, 1, 1] 3 false).sa.assembly.map (fun w => (w.list.length, w.fetchPoint, w.owed)) = some (1, 1, []) ∧
    (masterRead [0, 1, 0, 1, 1] 3 false).sq.state = .idle ∧ 4095 < 4096 ∧ 4091 + 5 ≤ 4096 := by decide +kernel
theorem witness_TransferDeliversTheBytes_master_fails : masterPasses (readBytes (masterRead [0, 1, 0, 2, 1] 3 false).store 16777211 5) = false ∧
    (3 : Nat) ≠ ((masterRead [] 3 false).fdm.pos[(0 : Fin 8)].metrics).missing ∧
    0 = ((masterRead [] 0 false).fdm.pos[(0 : Fin 8)].metrics).missing ∧
    (masterRead [] 3 true).sa.buffers[(7 : Fin 8)] = .fetching 0 true ∧ (masterRead [] 3 false).fs.holdsFor .strike = false := by
  decide +kernel

/-- A base page that passes R34's header tests, of a number of glyphs and no map, ligature or kern. -/
def headerOf (glyphs : Nat) : Bytes :=
  [0x47, 0x44, 0x46, 0x4D, 0, 1, 3, 232] ++ u16 glyphs ++ List.replicate 14 0 ++ u32 (64 + 16 * glyphs)

/-- A page of face 5's section on its way, with the section length known or not. -/
def pageRead (data : Bytes) (length : Option Nat) (memory : List (Nat × Bytes)) (face : FaceState) : State :=
  moving { requester := .mount, page := 4088, offset := 0, length := 28 } data
    { withFace 5 ⟨face, 4088, 8⟩ 7 { state := .loading 5, memory := memory } ready with
      fdm := { (withFace 5 ⟨face, 4088, 8⟩ 7 { state := .loading 5, memory := memory } ready).fdm with
        requests := [⟨5, [1], false⟩], load := some ⟨7, 5, none, length, 1⟩ } }

theorem witness_TransferDeliversTheBytes_mount :
    (pageRead [] none [] .defined).fdm.load = some ⟨7, 5, none, none, 1⟩ ∧ (pageRead [] none [] .defined).sq.state = .idle ∧
    headerTest (readBytes (pageRead [] none [] .defined).store (4096 * 4088) 28) 8 = some .format ∧
    headerTest (readBytes (pageRead (headerOf 252) none [] .defined).store (4096 * 4088) 28) 8 = none ∧
    at32 (readBytes (pageRead (headerOf 252) none [] .defined).store (4096 * 4088) 28) 24 = 4096 ∧
    headerTest (readBytes (pageRead (headerOf 253) none [] .defined).store (4096 * 4088) 28) 8 = none ∧
    at32 (readBytes (pageRead (headerOf 253) none [] .defined).store (4096 * 4088) 28) 24 = 4112 := by decide +kernel
theorem witness_TransferDeliversTheBytes_mount_later :
    (pageRead [] (some 4097) [(1, [])] .withdrawing).fdm.load = some ⟨7, 5, none, some 4097, 1⟩ ∧
    (placePage 0 [] [(1, [])]).length = pagesOf 4097 ∧ (placePage 0 [] []).length ≠ pagesOf 4097 ∧
    (pageRead [] (some 4097) [(1, [])] .withdrawing).fdm.dir[(5 : Fin 128)].state = .withdrawing := by decide +kernel

/-- Section 12.4: the last page of a load under a suspended erase, which then resumes; and a page that calls for another one. -/
theorem witness_TransferDeliversTheBytes_mount_suspended :
    (let s (data : Bytes) : State := { pageRead data none [] .defined with sq := { state := .eraseSuspended, eraseBlock := some 40 } }
     (s []).sq.state = .eraseSuspended ∧ (after .transferComplete (s [])).sq.state = .erasing ∧
       (after .transferComplete (s [])).fdm.load = none ∧
       headerTest (readBytes (s (headerOf 253)).store (4096 * 4088) 28) 8 = none ∧ (s (headerOf 253)).fs.queue = []) := by
  decide +kernel
/-- R107: a master that arrives while a program line waits for the transfer, and one beside a blank check. -/
theorem witness_TransferDeliversTheBytes_master_beside :
    (let s (q : Sq) : State := { masterRead [0, 1, 0, 1, 1] 3 false with sq := q }
     let line : Sq := { state := .programming, step := .claimed, buffer := [blankLine 2112 0] }
     let check : Sq := { state := .checking, check := some ⟨4094, 4095, false, 4095⟩ }
     (after .transferComplete (s line)).sq = { line with step := .sent } ∧ (after .transferComplete (s check)).sq = check ∧
       (after .transferComplete (s check)).sa.lane ≠ []) := by decide +kernel

theorem witness_BankAndEntryEvents : (queue69 0).fs.banks[(0 : Fin 8)] = .opened 5 (some 12) ∧
    ({ ready with fs := { held := [fetchOf .link 40 1] } } : State).fs.held = fetchOf .link 40 1 :: [] ∧
    ({ ready with fs := { queue := List.replicate 31 (fetchOf .link 40 1) } } : State).fs.queue.length < 32 ∧
    (fetchOf .link 40 1).requester = .link ∧ (fetchOf .sequencer 40 1).requester = .sequencer := by decide +kernel

/-- The sequencer in a state, its window open and the face of section 7.8 in block 32. -/
def seqIn (q : SqState) : State := session78 { state := q }

theorem witness_StoreWriteByState_refused : (seqIn .locked).linkFree ∧ (seqIn .locked).sq.state = .locked ∧
    (seqIn .erasing).sq.state = .erasing ∧ (List.replicate 256 (0 : Byte)).length = 256 := ⟨⟨rfl, rfl, rfl, rfl⟩, rfl, rfl, by decide +kernel⟩
theorem witness_StoreWriteByState_idle : (seqIn .idle).sq.state = .idle ∧ (4095 : Word).toNat < 4096 ∧ (3840 : Word).toNat % 256 = 0 ∧
    (seqIn .idle).sq.windowed (4095 / 64) = false ∧ (seqIn .idle).fdm.protects 4095 1 = false := by decide +kernel
theorem witness_StoreWriteByState_locks : ¬ ((4096 : Word).toNat < 4096) ∧ (seqIn .idle).sq.windowed (2047 / 64) = true ∧
    (seqIn .idle).sq.windowed (2048 / 64) = false ∧ (seqIn .idle).fdm.protects 2048 1 = true := by decide +kernel
theorem witness_StoreWriteByState_programming :
    (let s := session78 { state := .programming, buffer := [blankLine 2112 0] }
     s.sq.state = .programming ∧ s.sq.lockPending = false ∧ s.sq.buffer = [blankLine 2112 0] ∧ s.sq.windowed (2112 / 64) = false ∧
       s.fdm.protects 2112 1 = false) ∧
    (session78 { state := .programming, lockPending := true }).sq.lockPending = true ∧
    2 ≤ (session78 { state := .programming, buffer := [blankLine 2112 0, blankLine 2112 256] }).sq.buffer.length := by decide +kernel

theorem witness_ProgramLineDoneWritesTheLine :
    (let s := session78 { state := .programming, step := .sent, buffer := [blankLine 4095 3840] }
     s.sq.state = .programming ∧ s.sq.step = .sent ∧ s.sq.buffer = blankLine 4095 3840 :: []) := by decide +kernel

theorem witness_ProgramLineDoneWritesTheLine_locked :
    (let s := session78 { state := .programming, step := .sent, lockPending := true, kinds := { inUse := true }, buffer := [blankLine 2112 0] }
     s.sq.buffer = blankLine 2112 0 :: [] ∧ s.sq.kinds ≠ {}) ∧
    (let s := session78 { state := .programming, step := .sent, buffer := [blankLine 2112 0, blankLine 2112 256] }
     s.sq.buffer = blankLine 2112 0 :: blankLine 2112 256 :: []) := by decide +kernel

theorem witness_StoreEraseByState : (seqIn .idle).linkFree ∧ (seqIn .locked).sq.state = .locked ∧ (seqIn .checking).sq.state ≠ .locked ∧
    (seqIn .checking).sq.state ≠ .idle ∧ 64 ≤ (64 : Byte).toNat ∧ (seqIn .idle).sq.windowed 31 = true ∧
    (seqIn .idle).sq.windowed 32 = false ∧ (seqIn .idle).fdm.protects (64 * 32) 64 = true ∧
    (63 : Byte).toNat < 64 ∧ (seqIn .idle).sq.windowed 63 = false ∧ (seqIn .idle).fdm.protects (64 * 63) 64 = false :=
  ⟨⟨rfl, rfl, rfl, rfl⟩, by decide +kernel⟩

/-- The last block being erased. -/
def erasing63 (awaited : Bool) : State :=
  session78 { state := .erasing, eraseBlock := some 63, eraseSent := true, suspendAwaited := awaited }

theorem witness_EraseReportsPauseAndComplete : (erasing63 true).sq.state = .erasing ∧ (erasing63 true).sq.eraseBlock = some 63 ∧
    (erasing63 true).sq.suspendAwaited = true ∧ (erasing63 true).sq.eraseSent = true ∧ (erasing63 true).fs.isIdle = true ∧
    (queue69 0).fs.isIdle = false := by decide +kernel

theorem witness_BlankChecksAndReads : (seqIn .idle).linkFree ∧ (seqIn .idle).sq.state = .idle ∧ (4095 : Word).toNat ≤ (4095 : Word).toNat ∧
    ¬ ((1 : Word).toNat ≤ (0 : Word).toNat) ∧ ¬ ((4096 : Word).toNat < 4096) := ⟨⟨rfl, rfl, rfl, rfl⟩, by decide⟩
theorem witness_BlankChecksAndReads_refused : (seqIn .locked).linkFree ∧ (seqIn .locked).sq.state = .locked ∧
    (seqIn .checking).sq.state ≠ .locked ∧ (seqIn .checking).sq.state ≠ .idle := ⟨⟨rfl, rfl, rfl, rfl⟩, by decide +kernel⟩
theorem witness_BlankChecksAndReads_reads : (seqIn .idle).sq.state ≠ .locked ∧ (3840 : Word).toNat + (256 : Word).toNat ≤ 4096 ∧
    (seqIn .idle).fs.queue.length < 32 ∧ (seqIn .idle).fs.held = [] ∧
    32 ≤ ({ ready with fs := { queue := List.replicate 32 (fetchOf .link 40 1) } } : State).fs.queue.length := by decide +kernel

theorem witness_StoreModeAndWindowSetTheirValues : ready.linkFree ∧ ready.fdm.lock = false ∧ (seqIn .locked).sq.state = .locked ∧
    (seqIn .checking).sq.state ≠ .idle ∧ (1 : Byte).toNat ≤ 1 ∧ (63 : Byte).toNat < 64 ∧
    ¬ ((255 : Byte).toNat ≤ (0 : Byte).toNat) := ⟨ready_free, by decide +kernel⟩
theorem witness_StoreClearEmptiesTheErrorKinds : (seqIn .locked).linkFree ∧ (seqIn .locked).sq.state = .locked ∧
    (seqIn .programming).sq.state ≠ .idle ∧ (seqIn .programming).sq.state ≠ .locked := ⟨⟨rfl, rfl, rfl, rfl⟩, by decide +kernel⟩
theorem witness_StoreAbortEndsTheOperation : (erasing63 false).linkFree ∧ (erasing63 false).sq.state = .erasing ∧
    (erasing63 false).sq.eraseSent = true ∧ (erasing63 false).sq.eraseBlock = some 63 ∧
    (session78 { state := .programming, step := .sent, buffer := [blankLine 2112 0] }).sq.buffer = blankLine 2112 0 :: [] ∧
    (seqIn .checking).sq.state = .checking := ⟨⟨rfl, rfl, rfl, rfl⟩, by decide +kernel⟩

/-- A line in its pre-program read, one claimed, an erase claimed and not sent, one suspended, and a check. -/
theorem witness_StoreAbortEndsTheOperation_fetches :
    (let s := session78 { state := .programming, buffer := [blankLine 2112 0] }
     s.sq.step = .read ∧ s.sq.buffer ≠ []) ∧
    (let s := session78 { state := .programming, step := .claimed, buffer := [blankLine 2112 0] }
     s.sq.step ≠ .read ∧ s.sq.buffer = blankLine 2112 0 :: []) ∧
    (let s := session78 { state := .erasing, eraseBlock := some 63 }
     s.sq.state = .erasing ∧ s.sq.eraseSent = false) ∧
    (seqIn .eraseSuspended).sq.state = .eraseSuspended ∧ (seqIn .checking).sq.state = .checking := by decide +kernel

/-- A line's pre-program read about to be delivered: 256 bytes never written. -/
def readDone : State := { session78 { state := .programming, buffer := [blankLine 2112 0] } with
  fs := { path := .moving (fetchOf .sequencer 2112 256) true } }

theorem witness_ProtectedPagesAreNeverWritten : readDone.sq.step = .read ∧ (after .transferComplete readDone).sq.state = .programming ∧
    (after .transferComplete readDone).sq.step = .sent := by decide +kernel
/-- A program that has been sent, and the line behind it that begins at its read: the next line claimed is another one. -/
theorem witness_ProtectedPagesAreNeverWritten_next :
    (let q : Sq := { state := .programming, step := .sent, buffer := [blankLine 2112 0, blankLine 2112 256] }
     (after .programLineDone (session78 q)).sq.step = .read ∧
       (after .programLineDone (session78 q)).sq.buffer.head? ≠ q.buffer.head?) := by decide +kernel
theorem witness_ProtectedPagesAreNeverWritten_erase : (seqIn .idle).sq.state ≠ .erasing ∧
    (after (.storeErase 1 0 63) (seqIn .idle)).sq.state = .erasing := by decide +kernel

theorem witness_FilmCutBeginsTheCut : ready.linkFree ∧ ready.ex.queued = [] ∧ ready.ex.exposing = none ∧ ready.ce.comp = none ∧
    ready.ex.state = .unregistered ∧ ready.ex.counter < ready.ex.interval := ⟨ready_free, by decide +kernel⟩
theorem witness_FilmCutBeginsTheCut_due : ({ state := .held, counter := 256 } : Ex).interval ≤ ({ state := .held, counter := 256 } : Ex).counter ∧
    (film810 0 0 0 [queuedAt 0 1 4000]).ex.queued ≠ [] := by decide +kernel

theorem witness_ExposeSetSetsTheValues : ready.linkFree ∧ fieldsOk 6 [⟨7, 0⟩] = false ∧ fieldsOk 6 [⟨1, 55297⟩, ⟨6, 0⟩] = true ∧
    ready.ex.state ≠ .exposing ∧ ready.ex.state ≠ .calibrating ∧ ready.ex.state ≠ .cutting ∧
    ({ ready with ex := { state := .cutting } } : State).ex.state = .cutting := ⟨ready_free, by decide +kernel⟩
theorem witness_ExposeHoldAndResumeByState : ready.linkFree ∧ ready.ex.state = .unregistered ∧
    ({ state := .held } : Ex).state = .held ∧ ({ state := .cutting, holdReq := true } : Ex).holdReq = true ∧
    ({ state := .faulted } : Ex).state = .faulted ∧ ({ state := .calibrating } : Ex).holdReq = false := ⟨ready_free, by decide⟩

theorem witness_FilmArbiterChoosesAndExposes_outside : ready.ex.state ≠ .idle ∧ (film810 0 0 0 []).ex.state = .idle ∧
    (film810 0 0 0 []).ex.queued = [] := by decide +kernel
theorem witness_FilmArbiterChoosesAndExposes_unreachable :
    (let s := film810 5000 5000 0 [queuedAt 0 1 1999]
     s.ex.state = .idle ∧ s.ex.queued = queuedAt 0 1 1999 :: [] ∧ s.ex.high > 1999 + s.ex.reach) := by decide +kernel
theorem witness_FilmArbiterChoosesAndExposes_reachable :
    (let s := film810 5000 5000 256 [queuedAt 0 1 2000 1]
     s.ex.state = .idle ∧ s.ex.queued = queuedAt 0 1 2000 1 :: [] ∧ s.ex.high ≤ 2000 + s.ex.reach ∧ s.ex.interval ≤ s.ex.counter ∧
       s.ex.bypassLimit ≤ 1) := by decide +kernel
/-- Two lines of equal travel, the older on the far side of the film: the older is exposed. -/
theorem witness_FilmArbiterChoosesAndExposes_equal :
    (let s := film810 3000 3000 255 [queuedAt 0 1 4000, queuedAt 1 0 2000]
     s.ex.candidates = [] ++ queuedAt 0 1 4000 :: [queuedAt 1 0 2000] ∧ s.ex.distance (queuedAt 0 1 4000) = s.ex.distance (queuedAt 1 0 2000) ∧
       s.ex.counter < s.ex.interval ∧ (0 : Nat) < s.ex.bypassLimit ∧
       (after .filmArbiter s).ex.exposing.map (·.slot) = some 0) := by decide +kernel
/-- A line of channel 0 with a film of channel 0's last line: the calibration due is deferred. -/
theorem witness_FilmArbiterChoosesAndExposes_defers :
    (let s := film810 1000 1000 256 [queuedAt 0 0 1000]
     s.ex.interval ≤ s.ex.counter ∧ s.ex.lastChannel = some 0 ∧ s.ex.film ≤ 1000 ∧ s.ex.deferral < s.ex.deferLimit) := by
  decide +kernel

theorem witness_RecordSentMovesTheLane : ready.sa.lane = [] ∧ ({ lane := [.lineEnd, .calibrate] } : Sa).lane = .lineEnd :: [.calibrate] ∧
    ({ lane := [.calibrate] } : Sa).lane = .calibrate :: [] ∧ ({ lane := [.cut 9, .lineBegin 17 704] } : Sa).lane = .cut 9 :: [.lineBegin 17 704] ∧
    ({ lane := [.lineBegin 17 704], assembly := some { list := [] } } : Sa).lane = .lineBegin 17 704 :: [] := by decide

/-- A record of a strike list. -/
def recordOf (extend : Bool) : StrikeRec := { extend := extend, x := 0, size := 40, setw := 40, pos := 0, glyph := 3 }

/-- A record on its way from the last buffer, all buffers assigned, with a list of nine and one master still to fetch. -/
def manyRecords (extend : Bool) : State := { ready with sa := {
  lane := [if extend then .extend 0 9 40 [1] else .strike 0 0 40 40 [1]],
  buffers := #v[.fetching 1 false, .fetching 2 false, .fetching 3 false, .fetching 4 false, .fetching 5 false, .fetching 6 false,
    .fetching 7 false, .filled 0 [0, 1, 0, 1, 1] false],
  assembly := some { list := List.replicate 9 (recordOf extend), fetchPoint := 8 } } }

theorem witness_RecordSentMovesTheLane_more :
    (manyRecords false).sa.lane = .strike 0 0 40 40 [1] :: [] ∧ (manyRecords true).sa.lane = .extend 0 9 40 [1] :: [] ∧
    (manyRecords true).sa.filledFor 0 = some (7, [0, 1, 0, 1, 1], false) ∧
    (manyRecords true).sa.assembly.map (fun w => (w.sendPoint, w.owed, w.list[w.fetchPoint]?)) = some (0, [], some (recordOf true)) ∧
    (∀ d : Fin 8, (manyRecords true).sa.buffers[d] ≠ .free) ∧ (manyRecords true).fs.holdsFor .strike = false := by decide +kernel
/-- The only STRIKE of a line on its way: nothing is left to fetch. -/
theorem witness_RecordSentMovesTheLane_last :
    (let a : Sa := { (manyRecords false).sa with assembly := some { list := [recordOf false], fetchPoint := 1 } }
     a.filledFor 0 = some (7, [0, 1, 0, 1, 1], false) ∧ ([recordOf false]).length ≤ 1) := by decide +kernel

/-- R163, R164: the next record is omitted, its buffer freed and its place passed over; the record after it is sent. -/
theorem witness_RecordSentMovesTheLane_omitted :
    (let s : State := { ready with sa := {
       lane := [.lineBegin 17 704], assembly := some { list := [recordOf false, recordOf false], fetchPoint := 2 },
       buffers := setAt (setAt (Vector.replicate 8 .free) 0 (.filled 0 [] true)) 7 (.filled 1 [0, 1, 0, 1, 1] false) } }
     s.sa.filledFor 0 = some (0, [], true) ∧ (after .recordSent s).sa.lane = [.strike 0 0 40 40 [1]] ∧
       (after .recordSent s).sa.buffers[(0 : Fin 8)] = .free) := by decide +kernel

theorem witness_UnitDoneEndsTheOperation : ready.olu.phase ≠ .inReset ∧ ready.sa.returnPartial = false ∧ ready.ex.state = .unregistered ∧
    (0x70 : Byte) ≠ 0x71 ∧ (0x73 : Byte) ≠ 0x72 := by decide +kernel
/-- R189: the first CUT is on its way when a DONE comes. -/
theorem witness_UnitDoneEndsTheOperation_early : (after (.filmCut 1 0) ready).ex.timer = none ∧
    (after .unitDone (after (.filmCut 1 0) ready)).ex.state = .cutting := by decide +kernel
theorem witness_UnitDoneEndsTheOperation_exposing :
    (let e : Ex := { state := .exposing, exposing := some { exposingAt 3 0 1000 with line := { lineAt 0 1000 with used := [7, 0] } },
                     timer := some 9 }
     e.state = .exposing ∧ e.exposing.map (·.line.used) = some [7, 0] ∧ e.timer = some 9 ∧ ([7, 0] : List (Fin 8)).Nodup) := by
  decide +kernel
theorem witness_UnitDoneEndsTheOperation_calibrating :
    (let e : Ex := { state := .calibrating, chosen := some { slot := 15 }, timer := some 9, queued := [queuedAt 2 0 704, queuedAt 15 1 4000] }
     e.state = .calibrating ∧ e.timer = some 9 ∧ e.cutPending = false ∧ e.holdReq = false ∧ e.chosen = some ⟨15, false⟩ ∧
       e.queued.find? (fun y => y.slot == 15) = some (queuedAt 15 1 4000)) ∧
    ({ state := .calibrating, cutPending := true, timer := some 9 } : Ex).cutPending = true ∧
    ({ state := .calibrating, holdReq := true, timer := some 9 } : Ex).holdReq = true ∧
    ({ state := .cutting, timer := some 9 } : Ex).state = .cutting := by decide +kernel
/-- R145: the chosen line was removed by a CANCEL, and a new line stands in its slot. -/
theorem witness_UnitDoneEndsTheOperation_removed :
    (∀ n, (some { slot := 15, removed := true } : Option ChosenLine) = some ⟨n, false⟩ → ∀ q ∈ [queuedAt 15 1 4000], q.slot ≠ n) ∧
    (after .unitDone { ready with ex := {
      state := .calibrating, chosen := some { slot := 15, removed := true }, timer := some 9,
      queued := [queuedAt 15 1 4000] } }).ex.state = .idle :=
  ⟨by decide +kernel, by decide +kernel⟩

theorem witness_FaultsAndTimeoutStopTheController : ready.olu.phase ≠ .inReset ∧ ready.sa.returnPartial = false ∧
    ({ state := .faulted } : Ex).state = .faulted ∧ ready.ex.state ≠ .faulted ∧ faultKind 1 = .lamp ∧ faultKind 4 = .transport := by
  decide +kernel
theorem witness_FaultsAndTimeoutStopTheController_timeout :
    (let e : Ex := { state := .exposing, exposing := some (exposingAt 3 0 1000), timer := some 9 }
     e.state ≠ .faulted ∧ e.timer ≠ none) := by decide +kernel

/-- R154: every other state reports the fault alone; R114: a unit fault withdraws the STRIKE requests of the line it loses. -/
theorem witness_FaultsAndTimeoutStopTheController_others :
    (∀ x ∈ [ExState.unregistered, .idle, .calibrating, .cutting, .held], x ≠ .exposing ∧ x ≠ .faulted) ∧
    kinds (after (.unitFault 1) { ready with ex := { state := .cutting, timer := some 9 } }) = [0xC3] ∧
    (after (.unitFault 1) { ready with ex := { state := .exposing, exposing := some (exposingAt 3 0 1000) },
                                       fs := { queue := [fetchOf .strike 40 600, fetchOf .link 48 256] } }).fs.queue =
      [fetchOf .link 48 256] := by decide +kernel

theorem witness_ResetSourcesAndStartUp : State.reset.olu.resetLow = false ∧ (after .resetLineAssert ready).olu.resetLow = true ∧
    ready.sq.inFlight = .none ∧ (erasing63 false).sq.inFlight = .erase 63 ∧
    (session78 { state := .programming, step := .sent, buffer := [blankLine 4095 0] }).sq.inFlight = .program 4095 := by decide +kernel
theorem witness_ResetSourcesAndStartUp_startup :
    (let s : State := { State.reset with
       fs := {}, olu := { State.reset.olu with notices := List.replicate 31 (.faceRetired 0 0) } }
     s.olu.phase = .startup ∧ s.fs.closing = Vector.replicate 8 false ∧ s.olu.notices.length < 32) := by decide +kernel

theorem witness_ReturnsSentAndTheResetOrder :
    (let o := (after (.reset 1 0) ready).olu
     o.sending = some ⟨0x80, 1, 0, [0x51]⟩ ∧ (⟨0x80, 1, 0, [0x51]⟩ : Return).isAnswer = true ∧ o.resetDue = true ∧ o.resetLow = false) ∧
    (after (.mapLock 1 0) ready).olu.resetDue = false ∧ (after (.mapLock 1 0) ready).olu.sending = some ⟨0x80, 1, 0, [0x22, 0]⟩ := by
  decide +kernel
theorem witness_ReturnsSentAndTheResetOrder_notice :
    (let o : Olu := { ready.olu with sending := some ⟨0xC7, 0, 0, [1, 0]⟩, notices := [.faceRetired 3 0] }
     o.sending = some ⟨0xC7, 0, 0, [1, 0]⟩ ∧ (⟨0xC7, 0, 0, [1, 0]⟩ : Return).isAnswer = false ∧ o.phase = .running ∧
       o.answerSlot = none ∧ o.notices = .faceRetired 3 0 :: []) := by decide +kernel

theorem witness_RecordClearEmptiesTheRecord : ready.linkFree := ready_free

theorem witness_ArbiterServesTheNextPendingChannel :
    (let s := withCh 3 { state := .pending } ready
     s.ce.comp = none ∧ s.slotsTaken.length < 16 ∧ s.ch[s.ce.lastServed + 1 + 3].state = .pending ∧
       (∀ j : Fin 4, j < 3 → s.ch[s.ce.lastServed + 1 + j].state ≠ .pending)) := by decide +kernel

theorem witness_LineDeliveryQueuesTheLine :
    (lastUnit.readOn.ce.comp.map (fun c => (c.discard, c.decided lastUnit.readOn.metrics, lastUnit.readOn.ch[c.channel].holdReq))) =
      some (false, some ⟨0, .endLine, false⟩, false) := by decide +kernel

/-- The line's channel has a hold request and a pending COLUMN: R69, R61. -/
def lastUnitHeld : State := { lastUnit with ch := setAt lastUnit.ch 1 { lastUnit.ch[1] with holdReq := true, pendCol := some 4194303 } }

theorem witness_LineDeliveryQueuesTheLine_held :
    (lastUnitHeld.readOn.ce.comp.map (fun c =>
      (c.discard, c.decided lastUnitHeld.readOn.metrics, lastUnitHeld.readOn.ch[c.channel].holdReq, lastUnitHeld.readOn.ch[c.channel].pendCol))) =
      some (false, some ⟨0, .endLine, false⟩, true, some 4194303) ∧
    kinds (after .lineDelivery lastUnitHeld) = [0xC0, 0xC4] := by decide +kernel

/-- A section of one glyph of width 500 in an em of 1,000 that code 65 maps to, class DUAL, all forms. -/
def section65 : Bytes :=
  [0x47, 0x44, 0x46, 0x4D, 0, 1, 3, 232, 0, 1, 0, 1] ++ List.replicate 12 0 ++ u32 92 ++ List.replicate 36 0 ++
    u16 500 ++ List.replicate 14 0 ++ (u16 65 ++ u16 2 ++ List.replicate 8 0)

/-- A line in a measure that one glyph fills, of copy that may break after it: R45, R63, R28. -/
def breakLine : State :=
  let us : List BufUnit := [.char 65, .track 9, .brk false, .char 65, .endLine].map (fun u => ⟨u, 17⟩)
  { withFace 5 ⟨.defined, 4, 1⟩ 0 { state := .mounted 5, memory := [(0, section65)] } ready with
    ch := setAt ready.ch 1 { buffer := us, state := .composing },
    ce := { comp := some { compAt { measure := 400 } (workAt .rtl 5) with spanLen := 5 } } }

theorem witness_LineDeliveryQueuesTheLine_carry :
    (breakLine.readOn.ce.comp.map (fun c => (c.discard, c.used, c.decided breakLine.readOn.metrics))) =
      some (false, [0], some ⟨2, .brk false, false⟩) ∧
    (breakLine.readOn.ce.comp.map (fun c => (lettersOf breakLine.readOn.metrics c.read).map (fun l => (l.idx, l.entry.cls)))) =
      some [(0, 2), (3, 2)] ∧
    (let t := after .lineDelivery breakLine
     (t.ch[(1 : Fin 4)].carry, t.ch[(1 : Fin 4)].ctx.track, t.fdm.recency) = (some ⟨5, .rtl⟩, 9, [1, 2, 3, 4, 5, 6, 7, 0])) := by
  decide +kernel

/-- A composition that needs a unit beyond its span of one SPACE. -/
def noEnd : State := { lastUnit with ch := setAt lastUnit.ch 1 { buffer := [⟨.space, 17⟩], state := .composing } }

/-- A composition at its line start whose face is DEFINED and not mounted. -/
def unmounted : State :=
  { withCh 1 { state := .composing } (wanting {} []) with ce := { comp := some { compAt {} (workAt .ltr 5) with started := false } } }

theorem witness_AbandonmentLeavesTheCopy :
    (noEnd.readOn.ce.comp.map (fun c => (c.discard, c.decided noEnd.readOn.metrics, noEnd.readOn.stopNow c))) =
      some (false, none, none) ∧
    (unmounted.readOn.ce.comp.map (fun c => (c.discard, c.decided unmounted.readOn.metrics, unmounted.readOn.stopNow c))) =
      some (false, none, some (.mount 5)) := by decide +kernel
theorem witness_AbandonmentLeavesTheCopy_held :
    (let s : State := { unmounted with fdm := {} }
     s.readOn.ce.comp.map (fun c => (c.discard, c.decided s.readOn.metrics, s.readOn.stopNow c))) = some (false, none, some .face) := by
  decide +kernel

/-- An abandonment for copy of a channel with a hold request, whose line holds the last reference to a WITHDRAWING face's position. -/
theorem witness_AbandonmentLeavesTheCopy_retires :
    (let s : State := { withFace 5 ⟨.withdrawing, 4, 1⟩ 0 { state := .mounted 5, count := 1 } noEnd with
       ch := setAt noEnd.ch 1 { noEnd.ch[1] with holdReq := true },
       ce := { comp := noEnd.ce.comp.map (fun c => { c with used := [0] }) } }
     s.readOn.ce.comp.map (fun c => (c.used, c.discard, c.decided s.readOn.metrics, s.readOn.ch[c.channel].holdReq)) =
       some ([0], false, none, true) ∧ (s.readOn.fdm.decRefs [0]).2 = [.faceRetired 5 0] ∧ ([0] : List (Fin 8)).Nodup) := by
  decide +kernel

theorem witness_ScalingRoundsToNearest : 0 < 512 ∧ 2 * ((1 : Int).natAbs * 16 * 16) = (2 * 0 + 1) * 512 := by decide
theorem witness_SpreadingFillsTheMeasure : 0 < 1 ∧
    (fillLine ⟨fun _ => faceAB, ctxAB 2304, 40⟩ .justify false 2263 2161 2 0 3).unfilled = false := by decide +kernel
theorem witness_VisualOrderKeepsEveryElement : (∀ x ∈ [((0 : Nat), ({ kind := .space } : Placement))], x.2.dir = .ltr) ∧
    (∀ x ∈ [((0 : Nat), ({ kind := .space, dir := .rtl } : Placement))], x.2.dir = .rtl) := by decide

theorem witness_step : ∃ t, step State.reset = .next t := ⟨_, rfl⟩
theorem witness_StepKeepsStoreLaw : StoreLaw State.reset ∧ ∃ t, step State.reset = .next t := ⟨rfl, witness_step⟩
theorem witness_StepKeepsLinkLaw : LinkLaw State.reset ∧ ∃ t, step State.reset = .next t :=
  ⟨by unfold LinkLaw; decide +kernel, witness_step⟩
theorem witness_StepKeepsFetchLaw : FetchLaw State.reset ∧ ∃ t, step State.reset = .next t :=
  ⟨by unfold FetchLaw; decide +kernel, witness_step⟩
theorem witness_StepKeepsCopyLaw : CopyLaw State.reset ∧ ∃ t, step State.reset = .next t :=
  ⟨by unfold CopyLaw; decide +kernel, witness_step⟩
theorem witness_StepKeepsSettingLaw : SettingLaw State.reset ∧ ∃ t, step State.reset = .next t :=
  ⟨by unfold SettingLaw Context.inRange; decide +kernel, witness_step⟩
theorem witness_StepKeepsRegionLaw : RegionLaw State.reset ∧ ∃ t, step State.reset = .next t :=
  ⟨fun _ _ _ hf _ => absurd (by simp [State.reset]) hf, witness_step⟩
theorem witness_StepKeepsSequencerLaw : SequencerLaw State.reset ∧ ∃ t, step State.reset = .next t :=
  ⟨by unfold SequencerLaw; decide +kernel, witness_step⟩

/-- The film of section 8.10 with two lines QUEUED and O passed over once, FILM_ARBITER at the front. -/
def arbiterNext : State := { film810 5000 8000 0 [queuedAt 0 1 6000 1, queuedAt 2 0 7000] with pending := [.filmArbiter] }

/-- A CUT of which the unit has acknowledged all but the last two bytes, or all but the last, RECORD_SENT at the front. -/
theorem witness_StepKeepsExposureQueueLaws_lane : ∀ n ∈ [3, 4],
    let s : State := { ready with sa := { lane := [.cut 9], acked := n }, pending := [.recordSent] }
    LaneLaw s ∧ ∃ t, step s = .next t := by
  intro n hn
  refine ⟨⟨fun h => (by cases h), fun r rest h => ?_⟩, _, rfl⟩
  cases h
  revert n; decide +kernel
theorem witness_StepKeepsExposureQueueLaws : SlotLaw arbiterNext ∧ BypassLaw arbiterNext ∧ DeferralLaw arbiterNext ∧
    ∃ t, step arbiterNext = .next t :=
  ⟨by unfold SlotLaw; decide +kernel, by unfold BypassLaw; decide +kernel, by unfold DeferralLaw; decide +kernel, _, rfl⟩
theorem witness_StepKeepsFilmLaw : SlotLaw arbiterNext ∧ FilmLaw arbiterNext ∧ ∃ t, step arbiterNext = .next t :=
  ⟨by unfold SlotLaw; decide +kernel, ⟨fun _ => by decide, fun h => by cases h⟩, _, rfl⟩

/-- One line QUEUED that holds the only reference to a MOUNTED position. -/
def oneReference : State := { face5 { state := .mounted 5, count := 1 } with
  ex := { queued := [⟨0, { lineAt 0 704 with used := [7] }, 0⟩] }, pending := [.cancel 1 0] }

theorem witness_StepKeepsReferenceLaw : SlotLaw oneReference ∧ UsedLaw oneReference ∧ ReferenceLaw oneReference ∧
    ∃ t, step oneReference = .next t := by
  refine ⟨by unfold SlotLaw; decide +kernel, ⟨fun c h => (by cases h), by decide +kernel, fun x h => (by cases h)⟩,
    ⟨by decide +kernel, fun p h => ?_, fun l h => (by cases h)⟩, _, rfl⟩
  have key : ∀ q : Fin 8, oneReference.fdm.pos[q].count ≠ 0 → q = 7 := by decide +kernel
  obtain rfl := key p h
  exact ⟨5, rfl⟩

end Sys2Proof.Tests
end

