-- ==== Sys2Proof/Proofs/StoreClear.lean ====
section
/-! PROOF. STORE_CLEAR (R133): what it does to the sequencer in each state, and its answer on a free order link. -/

namespace Sys2Proof.Machine

/-! ### An order with good form on a free link (R173, R174) -/

/-- Every order may name target 0: an order for a channel means channel 0 by it, and the others must carry it. -/
theorem Order.targetOk_zero (o : Order) : o.targetOk 0 = true := by simp [Order.targetOk]

/-- On a free link an order of good form goes through the link's tests to its owning block, and the block's reply is its answer. -/
theorem State.giveOrder_acts {s : State} (h : s.linkFree) {o : Order} (hform : o.formOk = true) (tag : Byte) {target : Byte}
    (htarget : o.targetOk target = true) :
    s.giveOrder tag target o =
      (o.act tag target (s.inHand ⟨o.kind, tag, target⟩)).1.answer (o.act tag target (s.inHand ⟨o.kind, tag, target⟩)).2 := by
  rw [State.giveOrder_free h (Order.body_length_le o hform), State.takeOrder_ok s _ o hform htarget]

/-! ### The sequencer's part (R133) -/

/-- R133: in IDLE and LOCKED the kinds are emptied, the sequencer is IDLE, and the order is recorded as the latest. -/
theorem actStoreClear_accepts {s : State} (h : s.sq.state = .idle ∨ s.sq.state = .locked) :
    actStoreClear s = ({ s with sq := { s.sq.record 0x35 with state := .idle, kinds := {} } }, .accept []) := if_pos h

/-- R133: in any other state nothing changes. -/
theorem actStoreClear_busy {s : State} (hidle : s.sq.state ≠ .idle) (hlocked : s.sq.state ≠ .locked) :
    actStoreClear s = (s, .refuse .busy 0) := if_neg (not_or.mpr ⟨hidle, hlocked⟩)

/-! ### The command -/

/-- STORE_CLEAR on a free link is the sequencer's part on the state with the order in hand, answered. -/
theorem exec_storeClear_of_linkFree {s : State} (h : s.linkFree) (tag : Byte) :
    exec (.storeClear tag 0) s =
      .next (State.answer (actStoreClear (s.inHand ⟨0x35, tag, 0⟩)).2 (actStoreClear (s.inHand ⟨0x35, tag, 0⟩)).1).settle :=
  calc exec (.storeClear tag 0) s
    _ = .next (s.giveOrder tag 0 .storeClear).settle := rfl
    _ = _ := by rw [State.giveOrder_acts h rfl tag (Order.targetOk_zero _)]; rfl

/-- Settles O31: the link hands the order to the sequencer, which accepts it in IDLE and LOCKED and refuses it elsewhere; bringing
the order into the dispatcher's hand leaves the sequencer as it was. -/
theorem storeClearEmptiesTheErrorKinds : Obligations.StoreClearEmptiesTheErrorKinds := by
  intro s tag hfree
  have hexec := exec_storeClear_of_linkFree hfree tag
  refine ⟨fun hstate => ?accepted, fun hidle hlocked => ?refused⟩
  case accepted =>
    have hact := actStoreClear_accepts (s := s.inHand ⟨0x35, tag, 0⟩) hstate
    rw [hexec, hact]
    rfl
  case refused =>
    have hact := actStoreClear_busy (s := s.inHand ⟨0x35, tag, 0⟩) hidle hlocked
    rw [hexec, hact]
    rfl

end Sys2Proof.Machine
end

