-- ==== Sys2Proof/Proofs/RecordClear.lean ====
section
/-! PROOF. RECORD_CLEAR (R183): what it does to the order link's reset record, and its answer on a free order link. -/

namespace Sys2Proof.Machine

/-- R183: clearing the record of a state with an order in hand is taking the order in hand with the record already cleared; the
reply gives the record as it stood before, which the order in hand does not touch. -/
theorem actRecordClear_inHand (s : State) (hd : Head) :
    actRecordClear (s.inHand hd) =
      (({ s with olu := { s.olu with record := ⟨false, false, false, 0, .none⟩ } } : State).inHand hd,
        .accept s.olu.record.bytes) := rfl

/-- RECORD_CLEAR on a free link is the dispatcher's part on the state with the order in hand, answered. -/
theorem exec_recordClear_of_linkFree {s : State} (h : s.linkFree) (tag : Byte) :
    exec (.recordClear tag 0) s =
      .next (State.answer (actRecordClear (s.inHand ⟨0x52, tag, 0⟩)).2 (actRecordClear (s.inHand ⟨0x52, tag, 0⟩)).1).settle :=
  calc exec (.recordClear tag 0) s
    _ = .next (s.giveOrder tag 0 .recordClear).settle := rfl
    _ = _ := by rw [State.giveOrder_acts h rfl tag (Order.targetOk_zero _)]; rfl

/-- Settles O43: the link hands the order to the dispatcher, which accepts it in every state; the clear commutes with bringing the
order in hand, so the answered state is the cleared one. -/
theorem recordClearEmptiesTheRecord : Obligations.RecordClearEmptiesTheRecord := by
  intro s tag hfree
  rw [exec_recordClear_of_linkFree hfree tag, actRecordClear_inHand]
  rfl

end Sys2Proof.Machine
end


-- ==== Sys2Proof/Proofs/Frames.lean ====
section
/-! PROOF. Which blocks of the part each shared operation, each order and each command may change; and the induction that every law
of the part is proved by: a law is kept by every step when the commands that may change a block it reads keep it. -/

namespace Sys2Proof.Machine

/-! ### Blocks -/

/-- The blocks of the part, the master store and the timebase. -/
inductive Block where
  | olu
  | fdm
  | ch
  | ce
  | fs
  | sq
  | ex
  | sa
  | store
  | time
  deriving DecidableEq

/-- From `s` to `t` no block changes but those listed. -/
structure Touches (bs : List Block) (s t : State) : Prop where
  olu : .olu ∉ bs → t.olu = s.olu
  fdm : .fdm ∉ bs → t.fdm = s.fdm
  ch : .ch ∉ bs → t.ch = s.ch
  ce : .ce ∉ bs → t.ce = s.ce
  fs : .fs ∉ bs → t.fs = s.fs
  sq : .sq ∉ bs → t.sq = s.sq
  ex : .ex ∉ bs → t.ex = s.ex
  sa : .sa ∉ bs → t.sa = s.sa
  store : .store ∉ bs → t.store = s.store
  time : .time ∉ bs → t.time = s.time

theorem Touches.refl (bs : List Block) (s : State) : Touches bs s s := by constructor <;> exact fun _ => rfl

/-- Two changes one after the other. -/
theorem Touches.trans {bs : List Block} {s t u : State} (h : Touches bs s t) (k : Touches bs t u) : Touches bs s u where
  olu n := (k.olu n).trans (h.olu n)
  fdm n := (k.fdm n).trans (h.fdm n)
  ch n := (k.ch n).trans (h.ch n)
  ce n := (k.ce n).trans (h.ce n)
  fs n := (k.fs n).trans (h.fs n)
  sq n := (k.sq n).trans (h.sq n)
  ex n := (k.ex n).trans (h.ex n)
  sa n := (k.sa n).trans (h.sa n)
  store n := (k.store n).trans (h.store n)
  time n := (k.time n).trans (h.time n)

/-- A longer list says less. -/
theorem Touches.mono {bs cs : List Block} {s t : State} (h : Touches bs s t) (hs : ∀ b ∈ bs, b ∈ cs) : Touches cs s t where
  olu n := h.olu fun m => n (hs _ m)
  fdm n := h.fdm fun m => n (hs _ m)
  ch n := h.ch fun m => n (hs _ m)
  ce n := h.ce fun m => n (hs _ m)
  fs n := h.fs fun m => n (hs _ m)
  sq n := h.sq fun m => n (hs _ m)
  ex n := h.ex fun m => n (hs _ m)
  sa n := h.sa fun m => n (hs _ m)
  store n := h.store fun m => n (hs _ m)
  time n := h.time fun m => n (hs _ m)

/-- Two changes one after the other, each with its own list. -/
theorem Touches.comp {bs cs ds : List Block} {s t u : State} (h : Touches bs s t) (k : Touches cs t u)
    (hb : ∀ b ∈ bs, b ∈ ds) (hc : ∀ b ∈ cs, b ∈ ds) : Touches ds s u :=
  (h.mono hb).trans (k.mono hc)

/-! ### Shared operations -/

theorem State.settle_touches (s : State) : Touches [.olu] s s.settle := by constructor <;> simp
theorem State.post_touches (n : Notice) (s : State) : Touches [.olu] s (s.post n) := by constructor <;> simp
theorem State.postAll_touches (ns : List Notice) (s : State) : Touches [.olu] s (s.postAll ns) := by constructor <;> simp
theorem State.answer_touches (r : Reply) (s : State) : Touches [.olu] s (s.answer r) := by constructor <;> simp
theorem State.inHand_touches (h : Head) (s : State) : Touches [.olu] s (s.inHand h) := by constructor <;> simp
theorem State.rxBytes_touches (bs : Bytes) (s : State) : Touches [.olu] s (s.rxBytes bs) := by constructor <;> simp
theorem State.setCh_touches (c : Fin 4) (x : Channel) (s : State) : Touches [.ch] s (s.setCh c x) := by constructor <;> simp
theorem State.undefine_touches (a n : Nat) (s : State) : Touches [.store] s (s.undefine a n) := by constructor <;> simp

theorem State.setOlu_touches (o : Olu) (s : State) : Touches [.olu] s { s with olu := o } := by constructor <;> simp
theorem State.unitAcks_touches (s : State) : Touches [.sa] s s.unitAcks := by constructor <;> simp
theorem State.linkSends_touches (s : State) : Touches [.olu] s s.linkSends := by constructor <;> simp

theorem State.postEither_touches (a b : List Notice) (s : State) : Touches [.olu] s (s.postEither a b) := by
  unfold State.postEither
  split
  · exact s.postAll_touches _
  · dsimp only
    split <;> constructor <;> simp

theorem State.release_touches (used : List (Fin 8)) (s : State) : Touches [.fdm, .olu] s (s.release used) := by
  constructor <;> simp [State.release]

theorem State.wake_touches (cs : List (Fin 4)) (s : State) : Touches [.ch] s (s.wake cs) := by
  unfold State.wake
  induction cs generalizing s with
  | nil => exact .refl _ _
  | cons c cs ih =>
    rw [List.foldl_cons]
    refine Touches.trans ?_ (ih _)
    split
    · exact s.setCh_touches _ _
    · exact .refl _ _

theorem State.hold_touches (c : Fin 4) (why : HeldReason) (s : State) : Touches [.ch, .olu] s (s.hold c why) := by
  constructor <;> simp [State.hold]

theorem State.reachHold_touches (c : Fin 4) (s : State) : Touches [.fdm, .ch, .olu] s (s.reachHold c) := by
  unfold State.reachHold
  split <;> constructor <;> simp [State.hold]

theorem State.fetchesIdle_touches (s : State) : Touches [.fs, .sq] s s.fetchesIdle := by
  unfold State.fetchesIdle
  split <;> constructor <;> simp

theorem State.fetchWaiting_touches (s : State) : Touches [.sq] s s.fetchWaiting := by
  unfold State.fetchWaiting
  dsimp only
  split <;> constructor <;> simp

theorem State.idleReport_touches (wasIdle : Bool) (s : State) : Touches [.fs, .sq] s (s.idleReport wasIdle) := by
  unfold State.idleReport
  split
  · dsimp only
    split <;> constructor <;> simp
  · exact s.fetchesIdle_touches

/-! ### Composition -/

theorem State.readNext_touches (s : State) : Touches [.fdm, .ce] s s.readNext := by
  rw [s.readNext_frame]; constructor <;> simp

theorem State.readOn_touches (s : State) : Touches [.fdm, .ce] s s.readOn := by
  rw [s.readOn_frame]; constructor <;> simp

theorem State.serve_touches (c : Fin 4) (slot : Fin 16) (s : State) : Touches [.fdm, .ch, .ce] s (s.serve c slot) := by
  unfold State.serve
  exact Touches.comp (bs := [.ch, .ce]) (by constructor <;> simp) (State.readNext_touches _) (by decide) (by decide)

theorem State.restate_touches (c : Fin 4) (s : State) : Touches [.ch, .olu] s (s.restate c) := by
  unfold State.restate
  split
  · exact s.hold_touches _ _
  · exact (s.setCh_touches _ _).mono (by decide)

theorem State.deliverLine_touches (c : Composition) (e : LineEnd) (s : State) :
    Touches [.olu, .fdm, .ch, .ce, .ex] s (s.deliverLine c e) := by
  unfold State.deliverLine
  refine Touches.trans ?_ ((State.restate_touches _ _).mono (by decide))
  constructor <;> simp

theorem State.endWithout_touches (c : Composition) (e : Ending) (s : State) :
    Touches [.olu, .fdm, .ch, .ce] s (s.endWithout c e) := by
  unfold State.endWithout
  dsimp only
  split
  all_goals
    refine Touches.trans ?_ ((State.postEither_touches _ _ _).mono (by decide))
    constructor <;> simp

/-! ### The sequencer -/

theorem State.lockFor_touches (e : TargetError) (s : State) : Touches [.sq] s (s.lockFor e) := by
  constructor <;> simp [State.lockFor]

theorem State.beginLine_touches (l : ProgLine) (s : State) : Touches [.fs, .sq] s (s.beginLine l) := by
  constructor <;> simp [State.beginLine]

theorem State.endSession_touches (s : State) : Touches [.olu, .sq] s s.endSession := by
  constructor <;> simp [State.endSession]

theorem State.failLine_touches (l : ProgLine) (k : ErrorKinds) (s : State) : Touches [.olu, .sq] s (s.failLine l k) := by
  constructor <;> simp [State.failLine, State.endSession]

theorem State.claimLine_touches (l : ProgLine) (s : State) : Touches [.fs, .sq] s (s.claimLine l) := by
  constructor <;> simp [State.claimLine]

theorem State.lineRead_touches (data : Bytes) (s : State) : Touches [.olu, .fs, .sq] s (s.lineRead data) := by
  unfold State.lineRead
  split
  · exact .refl _ _
  · split
    · exact (s.failLine_touches _ _).mono (by decide)
    · split
      · exact (s.failLine_touches _ _).mono (by decide)
      · exact (s.claimLine_touches _).mono (by decide)

theorem State.endCheck_touches (found : Option (Nat × Nat × Byte)) (s : State) : Touches [.olu, .sq] s (s.endCheck found) := by
  constructor <;> simp [State.endCheck]

theorem State.pageRead_touches (data : Bytes) (s : State) : Touches [.olu, .fs, .sq] s (s.pageRead data) := by
  unfold State.pageRead
  split
  · exact .refl _ _
  · next c _ =>
    split
    · exact (s.endCheck_touches _).mono (by decide)
    · by_cases h : c.next = (if c.down then c.first else c.last)
      · rw [if_pos h]; exact (s.endCheck_touches none).mono (by decide)
      · rw [if_neg h]; constructor <;> simp

theorem State.sequencerRead_touches (data : Bytes) (s : State) : Touches [.olu, .fs, .sq] s (s.sequencerRead data) := by
  unfold State.sequencerRead
  split
  · exact s.lineRead_touches _
  · exact s.pageRead_touches _
  · exact .refl _ _

theorem State.stopStore_touches (s : State) : Touches [.store] s s.stopStore := by
  unfold State.stopStore
  split
  · split
    · exact s.undefine_touches _ _
    · exact .refl _ _
  · split
    · exact s.undefine_touches _ _
    · exact .refl _ _
  · exact s.undefine_touches _ _
  · exact .refl _ _

/-! ### Mounting -/

theorem State.pumpLoader_touches (s : State) : Touches [.fdm, .fs] s s.pumpLoader := by
  constructor <;> simp [State.pumpLoader]

theorem State.loadEnds_touches (l : Load) (fail : Option MountCause) (s : State) :
    Touches [.olu, .fdm, .ch] s (s.loadEnds l fail) := by
  unfold State.loadEnds
  refine Touches.trans ?_ ((State.wake_touches _ _).mono (by decide))
  constructor <;> simp

theorem State.mountPage_touches (r : FetchReq) (data : Bytes) (s : State) :
    Touches [.olu, .fdm, .ch, .fs] s (s.mountPage r data) := by
  have ends (d : Fdm) (l : Load) (fail : Option MountCause) :
      Touches [.olu, .fdm, .ch, .fs] s (State.loadEnds l fail { s with fdm := d }) :=
    Touches.comp (bs := [.fdm]) (by constructor <;> simp) (State.loadEnds_touches _ _ _) (by decide) (by decide)
  have pumps (d : Fdm) : Touches [.olu, .fdm, .ch, .fs] s (State.pumpLoader { s with fdm := d }) :=
    Touches.comp (bs := [.fdm]) (by constructor <;> simp) (State.pumpLoader_touches _) (by decide) (by decide)
  unfold State.mountPage
  split
  · exact .refl _ _
  · dsimp only
    split
    · split
      · exact ends _ _ _
      · split
        · exact ends _ _ _
        · exact pumps _
    · split
      · exact ends _ _ _
      · exact pumps _

theorem State.beginLoad_touches (q : MountReq) (p : Fin 8) (s : State) : Touches [.fdm, .fs] s (s.beginLoad q p) := by
  constructor <;> simp [State.beginLoad]

theorem State.retireNow_touches (f : Fin 128) (s : State) : Touches [.fdm, .ch] s (s.retireNow f) := by
  unfold State.retireNow
  refine Touches.trans ?_ ((State.wake_touches _ _).mono (by decide))
  constructor <;> simp

/-! ### The strike port -/

theorem State.pumpSa_touches (s : State) : Touches [.fs, .sa] s s.pumpSa := by
  constructor <;> simp [State.pumpSa]

theorem State.send_touches (s : State) : Touches [.fs, .sa] s s.send := by
  unfold State.send
  rw [sendNext_frame]
  constructor <;> simp

theorem State.masterArrived_touches (r : FetchReq) (data : Bytes) (s : State) :
    Touches [.fs, .ex, .sa] s (s.masterArrived r data) := by
  unfold State.masterArrived
  dsimp only
  split
  · split
    · exact Touches.comp (bs := [.sa]) (by constructor <;> simp) (State.send_touches _) (by decide) (by decide)
    · split
      · constructor <;> simp
      · split
        · exact Touches.comp (bs := [.ex, .sa]) (by constructor <;> simp) (State.send_touches _) (by decide) (by decide)
        · exact Touches.comp (bs := [.ex, .sa]) (by constructor <;> simp) (State.pumpSa_touches _) (by decide) (by decide)
  · exact .refl _ _

theorem State.assemble_touches (x : ExposingLine) (s : State) : Touches [.fs, .ex, .sa] s (s.assemble x) := by
  unfold State.assemble
  exact Touches.comp (bs := [.ex, .sa]) (by constructor <;> simp) (State.pumpSa_touches _) (by decide) (by decide)

theorem State.recordSent_touches (r : OutRecord) (s : State) : Touches [.fs, .ex, .sa] s (s.recordSent r) := by
  have next : Touches [.fs, .ex, .sa] s (State.pumpSa { s with sa := s.sa.sentRecord }).send :=
    Touches.comp (bs := [.fs, .sa])
      (Touches.comp (bs := [.sa]) (by constructor <;> simp) (State.pumpSa_touches _) (by decide) (by decide))
      (State.send_touches _) (by decide) (by decide)
  cases r with
  | lineBegin _ _ => exact (s.send_touches).mono (by decide)
  | strike _ _ _ _ _ => exact next
  | extend _ _ _ _ => exact next
  | lineEnd => constructor <;> simp [State.recordSent, State.startTimer]
  | calibrate => constructor <;> simp [State.recordSent, State.startTimer]
  | cut _ => constructor <;> simp [State.recordSent, State.startTimer]

/-! ### Fetches delivered -/

theorem State.entered_touches (q : Requester) (s : State) : Touches [.olu, .fdm, .fs, .sa] s (s.entered q) := by
  cases q with
  | mount => exact (s.pumpLoader_touches).mono (by decide)
  | strike => exact (s.pumpSa_touches).mono (by decide)
  | sequencer => exact .refl _ _
  | link => exact (s.answer_touches (.accept [])).mono (by decide)

theorem State.deliver_touches (r : FetchReq) (data : Bytes) (s : State) :
    Touches [.olu, .fdm, .ch, .fs, .sq, .ex, .sa] s (s.deliver r data) := by
  unfold State.deliver
  split
  · exact (s.mountPage_touches _ _).mono (by decide)
  · exact (s.masterArrived_touches _ _).mono (by decide)
  · exact (s.sequencerRead_touches _).mono (by decide)
  · exact (s.post_touches _).mono (by decide)

/-! ### The exposure controller -/

theorem State.loseLine_touches (l : Line) (why : LossReason) (s : State) : Touches [.olu, .fdm] s (s.loseLine l why) := by
  unfold State.loseLine
  exact Touches.comp (s.post_touches _) (State.release_touches _ _) (by decide) (by decide)

theorem State.loseQueued_touches (qs : List QueuedLine) (s : State) : Touches [.olu, .fdm, .ex] s (s.loseQueued qs) := by
  induction qs generalizing s with
  | nil => exact .refl _ _
  | cons q qs ih =>
    refine Touches.trans (Touches.comp (cs := [.ex]) (s.loseLine_touches q.line .reach) ?_ (by decide) (by decide)) (ih _)
    constructor <;> simp

theorem State.loseChannel_touches (c : Fin 4) (s : State) : Touches [.olu, .fdm, .ch, .ex] s (s.loseChannel c) := by
  unfold State.loseChannel
  exact Touches.comp (s.loseQueued_touches _) (State.reachHold_touches _ _) (by decide) (by decide)

theorem State.expose_touches (q : QueuedLine) (s : State) : Touches [.fs, .ex, .sa] s (s.expose q) := by
  unfold State.expose
  exact Touches.comp (bs := [.ex]) (by constructor <;> simp) (State.assemble_touches _ _) (by decide) (by decide)

theorem State.calibrate_touches (s : State) : Touches [.ex, .sa] s s.calibrate := by
  constructor <;> simp [State.calibrate]

theorem State.take_touches (q : QueuedLine) (s : State) : Touches [.fs, .ex, .sa] s (s.take q) := by
  unfold State.take
  split
  · exact s.expose_touches q
  · split
    · exact Touches.comp (bs := [.ex]) (by constructor <;> simp) (State.expose_touches _ _) (by decide) (by decide)
    · exact Touches.comp (bs := [.ex]) (by constructor <;> simp) (State.calibrate_touches _) (by decide) (by decide)

theorem State.arbitrate_touches (n : Nat) (s : State) : Touches [.olu, .fdm, .ch, .fs, .ex, .sa] s (s.arbitrate n) := by
  induction n generalizing s with
  | zero => exact .refl _ _
  | succ n ih =>
    unfold State.arbitrate
    split
    · exact .refl _ _
    · split
      · exact ((s.loseChannel_touches _).mono (by decide)).trans (ih _)
      · exact Touches.comp (bs := [.ex]) (by constructor <;> simp) (State.take_touches _ _) (by decide) (by decide)

theorem State.exposed_touches (x : ExposingLine) (s : State) : Touches [.olu, .fdm, .ex] s (s.exposed x) := by
  constructor <;> simp [State.exposed, State.release]

theorem State.cut_touches (s : State) : Touches [.ex, .sa] s s.cut := by constructor <;> simp [State.cut]

theorem State.calibrated_touches (s : State) : Touches [.fs, .ex, .sa] s s.calibrated := by
  unfold State.calibrated
  dsimp only
  split
  · exact Touches.comp (bs := [.ex]) (by constructor <;> simp) (State.cut_touches _) (by decide) (by decide)
  · split
    · constructor <;> simp
    · split
      · exact Touches.comp (bs := [.ex]) (by constructor <;> simp) (State.expose_touches _ _) (by decide) (by decide)
      · constructor <;> simp

theorem State.takeDone_touches (s : State) : Touches [.olu, .fdm, .fs, .ex, .sa] s s.takeDone := by
  unfold State.takeDone
  split
  · exact .refl _ _
  · split
    · exact (s.exposed_touches _).mono (by decide)
    · exact (s.calibrated_touches).mono (by decide)
    · constructor <;> simp
    · exact .refl _ _

theorem State.stopPort_touches (s : State) : Touches [.fs, .sa] s s.stopPort := by
  unfold State.stopPort
  split <;> constructor <;> simp

theorem State.loseExposing_touches (why : LossReason) (s : State) : Touches [.olu, .fdm, .ex] s (s.loseExposing why) := by
  unfold State.loseExposing
  split
  · next x _ _ =>
    exact Touches.comp (cs := [.ex]) (s.loseLine_touches x.line why) (by constructor <;> simp) (by decide) (by decide)
  · exact .refl _ _

theorem State.enterFaulted_touches (cause : FaultCause) (why : LossReason) (s : State) :
    Touches [.olu, .fdm, .fs, .sq, .ex, .sa] s (s.enterFaulted cause why) := by
  unfold State.enterFaulted
  refine Touches.trans ?_ ((State.fetchesIdle_touches _).mono (by decide))
  have lost : Touches [.olu, .fdm, .fs, .sq, .ex, .sa] s (s.stopPort.loseExposing why) :=
    Touches.comp (s.stopPort_touches) (State.loseExposing_touches _ _) (by decide) (by decide)
  exact lost.trans (by constructor <;> simp)

theorem State.takeFault_touches (cause : FaultCause) (s : State) :
    Touches [.olu, .fdm, .fs, .sq, .ex, .sa] s (s.takeFault cause) := by
  unfold State.takeFault
  split
  · constructor <;> simp
  · exact s.enterFaulted_touches _ _

theorem State.returnByte_touches (b : Byte) (s : State) : Touches [.olu, .fdm, .fs, .sq, .ex, .sa] s (s.returnByte b) := by
  unfold State.returnByte
  split
  · exact .refl _ _
  · split
    · exact Touches.comp (bs := [.sa]) (by constructor <;> simp) (State.takeFault_touches _ _) (by decide) (by decide)
    · split
      · exact (s.takeDone_touches).mono (by decide)
      · split
        · constructor <;> simp
        · exact .refl _ _

/-! ### Orders -/

/-- The blocks that an order's owning block may change. -/
def Order.blocks : Order → List Block
  | .copy _ => [.ch]
  | .channelSet _ => [.ch]
  | .column _ => [.ch]
  | .cancel => [.olu, .fdm, .ch, .ce, .ex]
  | .release => [.ch]
  | .channelQuery => []
  | .faceDefine _ _ _ => [.fdm]
  | .faceWithdraw _ => [.fdm, .ch]
  | .mapLock => [.fdm]
  | .faceQuery _ => []
  | .mount _ => [.fdm]
  | .fetchSet _ => [.fs]
  | .storeWrite _ _ _ => [.fs, .sq]
  | .storeErase _ => [.fs, .sq]
  | .storeBlank _ _ _ => [.fs, .sq]
  | .storeRead _ _ _ => [.fs]
  | .storeMode _ _ => [.sq]
  | .storeClear => [.sq]
  | .storeAbort => [.olu, .fs, .sq, .store]
  | .storeWindow _ _ => [.sq]
  | .storeQuery => []
  | .filmCut => [.ch, .ex, .sa]
  | .exposeSet _ => [.ex]
  | .exposeHold => [.ex]
  | .exposeResume => [.ex]
  | .exposeQuery => []
  | .status => []
  | .reset => [.olu]
  | .recordClear => [.olu]

theorem actCopy_touches (tag target : Byte) (us : List RawUnit) (s : State) : Touches [.ch] s (actCopy tag target us s).1 := by
  unfold actCopy
  split
  · exact .refl _ _
  · split
    · exact .refl _ _
    · dsimp only
      split
      · exact .refl _ _
      · split
        · exact .refl _ _
        · exact s.setCh_touches _ _

theorem actChannelSet_touches (target : Byte) (fs : List FieldEntry) (s : State) :
    Touches [.ch] s (actChannelSet target fs s).1 := by
  unfold actChannelSet
  split
  · exact .refl _ _
  · split
    · exact .refl _ _
    · dsimp only
      split <;> exact s.setCh_touches _ _

theorem actColumn_touches (target : Byte) (top : BitVec 32) (s : State) : Touches [.ch] s (actColumn target top s).1 := by
  unfold actColumn
  split
  · exact .refl _ _
  · dsimp only
    split <;> exact s.setCh_touches _ _

theorem State.discardOf_touches (c : Fin 4) (s : State) : Touches [.olu, .fdm, .ch, .ce] s (s.discardOf c) := by
  unfold State.discardOf
  split
  · split
    · exact s.endWithout_touches _ _
    · exact .refl _ _
  · exact .refl _ _

theorem actCancel_touches (target : Byte) (s : State) : Touches [.olu, .fdm, .ch, .ce, .ex] s (actCancel target s).1 := by
  unfold actCancel
  split
  · exact .refl _ _
  · dsimp only
    refine Touches.trans ?_ ((State.discardOf_touches _ _).mono (by decide))
    refine Touches.trans ?_ ((State.release_touches _ _).mono (by decide))
    constructor <;> simp

theorem actRelease_touches (target : Byte) (s : State) : Touches [.ch] s (actRelease target s).1 := by
  unfold actRelease
  split
  · exact .refl _ _
  · split
    · exact s.setCh_touches _ _
    · exact .refl _ _

theorem actChannelQuery_touches (target : Byte) (s : State) : Touches [] s (actChannelQuery target s).1 := by
  unfold actChannelQuery
  split <;> exact .refl _ _

theorem actFaceDefine_touches (face : Byte) (base size : Word) (s : State) :
    Touches [.fdm] s (actFaceDefine face base size s).1 := by
  unfold actFaceDefine
  split
  · exact .refl _ _
  · constructor <;> simp

theorem actFaceWithdraw_touches (face : Byte) (s : State) : Touches [.fdm, .ch] s (actFaceWithdraw face s).1 := by
  unfold actFaceWithdraw
  split
  · exact .refl _ _
  · split
    · exact .refl _ _
    · dsimp only
      split
      · exact .refl _ _
      · split
        · constructor <;> simp
        · exact s.retireNow_touches _

theorem actFaceQuery_touches (face : Byte) (s : State) : Touches [] s (actFaceQuery face s).1 := by
  unfold actFaceQuery
  split
  · exact .refl _ _
  · split <;> exact .refl _ _

theorem actMount_touches (face : Byte) (s : State) : Touches [.fdm] s (actMount face s).1 := by
  have queued (rs : List MountReq) : Touches [.fdm] s { s with fdm := { s.fdm with requests := rs } } := by
    constructor <;> simp
  unfold actMount
  split
  · exact .refl _ _
  · dsimp only
    split
    · exact .refl _ _
    · split
      · exact .refl _ _
      · split
        · exact queued _
        · split
          · exact .refl _ _
          · split
            · exact queued _
            · split
              · exact .refl _ _
              · exact queued _

theorem actFetchSet_touches (fs : List FieldEntry) (s : State) : Touches [.fs] s (actFetchSet fs s).1 := by
  unfold actFetchSet
  split
  · exact .refl _ _
  · constructor <;> simp

theorem actStoreWrite_touches (page offset : Word) (data : Bytes) (s : State) :
    Touches [.fs, .sq] s (actStoreWrite page offset data s).1 := by
  unfold actStoreWrite
  dsimp only
  split
  · exact .refl _ _
  · exact .refl _ _
  · exact .refl _ _
  · exact .refl _ _
  · split
    · exact (s.lockFor_touches _).mono (by decide)
    · exact Touches.comp (bs := [.sq]) (by constructor <;> simp) (State.beginLine_touches _ _) (by decide) (by decide)
  · split
    · exact .refl _ _
    · split
      · constructor <;> simp
      · split
        · exact .refl _ _
        · constructor <;> simp

theorem actStoreErase_touches (block : Byte) (s : State) : Touches [.fs, .sq] s (actStoreErase block s).1 := by
  unfold actStoreErase
  split
  · exact .refl _ _
  · split
    · exact (s.lockFor_touches _).mono (by decide)
    · constructor <;> simp
  · exact .refl _ _

theorem actStoreBlank_touches (first last : Word) (direction : Byte) (s : State) :
    Touches [.fs, .sq] s (actStoreBlank first last direction s).1 := by
  unfold actStoreBlank
  split
  · exact .refl _ _
  · split
    · exact (s.lockFor_touches _).mono (by decide)
    · constructor <;> simp
  · exact .refl _ _

theorem actStoreRead_touches (tag : Byte) (page offset length : Word) (s : State) :
    Touches [.fs] s (actStoreRead tag page offset length s).1 := by
  unfold actStoreRead
  split
  · exact .refl _ _
  · split
    · exact .refl _ _
    · constructor <;> simp

theorem actStoreMode_touches (mode limit : Byte) (s : State) : Touches [.sq] s (actStoreMode mode limit s).1 := by
  unfold actStoreMode
  split
  · constructor <;> simp
  · exact .refl _ _

theorem actStoreClear_touches (s : State) : Touches [.sq] s (actStoreClear s).1 := by
  unfold actStoreClear
  split
  · constructor <;> simp
  · exact .refl _ _

theorem actStoreAbort_touches (s : State) : Touches [.olu, .fs, .sq, .store] s (actStoreAbort s).1 := by
  unfold actStoreAbort
  refine Touches.comp (s.stopStore_touches) (cs := [.olu, .fs, .sq]) ?_ (by decide) (by decide)
  constructor <;> simp

theorem actStoreWindow_touches (first last : Byte) (s : State) : Touches [.sq] s (actStoreWindow first last s).1 := by
  unfold actStoreWindow
  split
  · exact .refl _ _
  · split
    · constructor <;> simp
    · split
      · exact .refl _ _
      · constructor <;> simp

theorem actFilmCut_touches (s : State) : Touches [.ch, .ex, .sa] s (actFilmCut s).1 := by
  unfold actFilmCut
  split
  · exact .refl _ _
  · dsimp only
    split <;> constructor <;> simp [State.rewindColumns, State.calibrate, State.cut]

theorem actExposeSet_touches (fs : List FieldEntry) (s : State) : Touches [.ex] s (actExposeSet fs s).1 := by
  unfold actExposeSet
  split
  · exact .refl _ _
  · split
    · exact .refl _ _
    · constructor <;> simp

theorem actExposeHold_touches (s : State) : Touches [.ex] s (actExposeHold s).1 := by
  unfold actExposeHold
  split <;> constructor <;> simp

theorem actExposeResume_touches (s : State) : Touches [.ex] s (actExposeResume s).1 := by
  unfold actExposeResume
  dsimp only
  split
  · constructor <;> simp
  · constructor <;> simp
  · exact .refl _ _
  · exact .refl _ _
  · split
    · constructor <;> simp
    · exact .refl _ _

/-- R174: what an order's owning block may change. -/
theorem Order.act_touches (tag target : Byte) (o : Order) (s : State) : Touches o.blocks s (o.act tag target s).1 := by
  cases o with
  | copy us => exact actCopy_touches tag target us s
  | channelSet fs => exact actChannelSet_touches target fs s
  | column top => exact actColumn_touches target top s
  | cancel => exact actCancel_touches target s
  | release => exact actRelease_touches target s
  | channelQuery => exact actChannelQuery_touches target s
  | faceDefine f b n => exact actFaceDefine_touches f b n s
  | faceWithdraw f => exact actFaceWithdraw_touches f s
  | mapLock => constructor <;> simp [Order.act, actMapLock, Order.blocks]
  | faceQuery f => exact actFaceQuery_touches f s
  | mount f => exact actMount_touches f s
  | fetchSet fs => exact actFetchSet_touches fs s
  | storeWrite p o d => exact actStoreWrite_touches p o d s
  | storeErase b => exact actStoreErase_touches b s
  | storeBlank f l d => exact actStoreBlank_touches f l d s
  | storeRead p o n => exact actStoreRead_touches tag p o n s
  | storeMode m l => exact actStoreMode_touches m l s
  | storeClear => exact actStoreClear_touches s
  | storeAbort => exact actStoreAbort_touches s
  | storeWindow f l => exact actStoreWindow_touches f l s
  | storeQuery => exact .refl _ _
  | filmCut => exact actFilmCut_touches s
  | exposeSet fs => exact actExposeSet_touches fs s
  | exposeHold => exact actExposeHold_touches s
  | exposeResume => exact actExposeResume_touches s
  | exposeQuery => exact .refl _ _
  | status => exact .refl _ _
  | reset => constructor <;> simp [Order.act, actReset, Order.blocks]
  | recordClear => constructor <;> simp [Order.act, actRecordClear, Order.blocks]

/-! ### Events -/

/-- Every block. -/
def Block.all : List Block := [.olu, .fdm, .ch, .ce, .fs, .sq, .ex, .sa, .store, .time]

theorem Touches.all (s t : State) : Touches Block.all s t := by constructor <;> simp [Block.all]

/-- The blocks that an event may change, the transmitter's next choice with it; for an order command, and for DISPATCH, all that
some order may. -/
def blocksOf : Instr → List Block
  | .resetLineRelease => [.olu, .fs, .time]
  | .startupEnd => [.olu]
  | .headerReceived _ => [.olu]
  | .huntCandidate _ => [.olu]
  | .frameReceived _ => [.olu]
  | .attentionPulseExpiry => [.olu, .time]
  | .noticeSent => [.olu]
  | .arbiterChoice => [.olu, .fdm, .ch, .ce]
  | .lineDelivery => [.olu, .fdm, .ch, .ce, .ex]
  | .compositionAbandon => [.olu, .fdm, .ch, .ce]
  | .mountLoadBegin => [.olu, .fdm, .fs]
  | .fetchChoice => [.olu, .fs, .sq]
  | .fetchRequestEntry => [.olu, .fdm, .fs, .sa]
  | .rowOpenDone => [.olu, .fs]
  | .transferComplete => [.olu, .fdm, .ch, .fs, .sq, .ex, .sa]
  | .holdDeadlineExpiry _ => [.olu, .fs, .time]
  | .bankCloseDone _ => [.olu, .fs]
  | .programLineDone => [.olu, .fs, .sq, .store]
  | .erasePaused => [.olu, .fs, .sq, .store]
  | .eraseDone => [.olu, .fs, .sq, .store]
  | .filmArbiter => [.olu, .fdm, .ch, .fs, .ex, .sa]
  | .recordSent => [.olu, .fs, .ex, .sa]
  | .unitDone => [.olu, .fdm, .fs, .sq, .ex, .sa]
  | .unitFault _ => [.olu, .fdm, .fs, .sq, .ex, .sa]
  | .exposureTimeout => [.olu, .fdm, .fs, .sq, .ex, .sa, .time]
  | .unknownReturnByte _ => [.olu, .fdm, .fs, .sq, .ex, .sa]
  | _ => Block.all

/-- A command that ends with the transmitter's choice changes what its own part does, and the order link. -/
theorem Touches.settled {bs cs : List Block} {s u t : State} (h : Touches bs s u)
    (e : (Host.Outcome.next u.settle : Host.Outcome State Fault Refusal) = .next t) (hb : ∀ b ∈ Block.olu :: bs, b ∈ cs) :
    Touches cs s t := by
  cases e
  exact h.comp u.settle_touches (fun b m => hb b (List.mem_cons_of_mem _ m)) (fun b m => hb b (by simp_all))

theorem execArbiterChoice_touches {s t : State} (h : execArbiterChoice s = .next t) : Touches [.olu, .fdm, .ch, .ce] s t := by
  unfold execArbiterChoice at h
  split at h
  · exact (State.serve_touches _ _ _).settled h (by decide)
  · exact (Touches.refl [] s).settled h (by decide)

theorem execLineDelivery_touches {s t : State} (h : execLineDelivery s = .next t) :
    Touches [.olu, .fdm, .ch, .ce, .ex] s t := by
  have read := s.readOn_touches
  unfold execLineDelivery at h
  dsimp only at h
  split at h
  · exact read.settled h (by decide)
  · split at h
    · exact (Touches.comp (ds := [.olu, .fdm, .ch, .ce]) read (State.endWithout_touches _ _ _) (by decide) (by decide)).settled h
        (by decide)
    · split at h
      · exact (Touches.comp (ds := [.olu, .fdm, .ch, .ce, .ex]) read (State.deliverLine_touches _ _ _) (by decide)
          (by decide)).settled h (by decide)
      · exact read.settled h (by decide)

theorem execCompositionAbandon_touches {s t : State} (h : execCompositionAbandon s = .next t) :
    Touches [.olu, .fdm, .ch, .ce] s t := by
  have read := s.readOn_touches
  have ends (c : Composition) (e : Ending) : Touches [.olu, .fdm, .ch, .ce] s (s.readOn.endWithout c e) :=
    Touches.comp read (State.endWithout_touches _ _ _) (by decide) (by decide)
  unfold execCompositionAbandon at h
  dsimp only at h
  split at h
  · exact read.settled h (by decide)
  · split at h
    · exact (ends _ _).settled h (by decide)
    · split at h
      · exact read.settled h (by decide)
      · split at h
        · exact (ends _ _).settled h (by decide)
        · exact (ends _ _).settled h (by decide)

theorem execMountLoadBegin_touches {s t : State} (h : execMountLoadBegin s = .next t) : Touches [.olu, .fdm, .fs] s t := by
  unfold execMountLoadBegin at h
  split at h
  · split at h
    · exact (State.beginLoad_touches _ _ _).settled h (by decide)
    · exact (Touches.refl [] s).settled h (by decide)
  · exact (Touches.refl [] s).settled h (by decide)

theorem execFetchChoice_touches {s t : State} (h : execFetchChoice s = .next t) : Touches [.olu, .fs, .sq] s t := by
  unfold execFetchChoice at h
  split at h
  · split at h
    · exact Touches.settled (bs := [.fs]) (by constructor <;> simp) h (by decide)
    · exact (State.fetchWaiting_touches s).settled h (by decide)
  · exact (Touches.refl [] s).settled h (by decide)

theorem execFetchRequestEntry_touches {s t : State} (h : execFetchRequestEntry s = .next t) :
    Touches [.olu, .fdm, .fs, .sa] s t := by
  unfold execFetchRequestEntry at h
  split at h
  · exact (Touches.refl [] s).settled h (by decide)
  · split at h
    · refine (Touches.comp (bs := [.fs]) (ds := [.olu, .fdm, .fs, .sa]) ?_ (State.entered_touches _ _) (by decide)
        (by decide)).settled h (by decide)
      constructor <;> simp
    · exact (Touches.refl [] s).settled h (by decide)

theorem execTransferComplete_touches {s t : State} (h : execTransferComplete s = .next t) :
    Touches [.olu, .fdm, .ch, .fs, .sq, .ex, .sa] s t := by
  unfold execTransferComplete at h
  split at h
  · next r wanted _ =>
    split at h
    · cases h
    · dsimp only at h
      refine (Touches.trans (bs := [.olu, .fdm, .ch, .fs, .sq, .ex, .sa]) ?_
        ((State.idleReport_touches _ _).mono (by decide))).settled h (by decide)
      have done : Touches [.fs, .sq] s { s with fs := s.fs.completed s.time r, sq := s.sq.sendWaiting } := by
        constructor <;> simp
      split
      · exact Touches.comp done (State.deliver_touches _ _ _) (by decide) (by decide)
      · exact done.mono (by decide)
  · exact (Touches.refl [] s).settled h (by decide)

theorem execProgramLineDone_touches {s t : State} (h : execProgramLineDone s = .next t) : Touches [.olu, .fs, .sq, .store] s t := by
  unfold execProgramLineDone at h
  split at h
  · next l rest _ _ _ =>
    dsimp only at h
    have written : Touches [.fs, .sq, .store] s { s.writeLine l with
        fs := (s.writeLine l).fs.releaseBank (bankOf l.page),
        sq := { (s.writeLine l).sq with buffer := rest, programmed := held16 ((s.writeLine l).sq.programmed + 1) } } := by
      constructor <;> simp
    split at h
    · exact (Touches.comp (ds := [.olu, .fs, .sq, .store]) written (State.endSession_touches _) (by decide) (by decide)).settled h
        (by decide)
    · exact (Touches.comp (ds := [.olu, .fs, .sq, .store]) written (State.beginLine_touches _ _) (by decide) (by decide)).settled h
        (by decide)
  · exact (Touches.refl [] s).settled h (by decide)

theorem execErasePaused_touches {s t : State} (h : execErasePaused s = .next t) : Touches [.olu, .fs, .sq, .store] s t := by
  unfold execErasePaused at h
  split at h
  · dsimp only at h
    refine (Touches.comp (bs := [.fs, .sq, .store]) (ds := [.fs, .sq, .store]) ?_ (State.fetchesIdle_touches _) (by decide)
      (by decide)).settled h (by decide)
    constructor <;> simp
  · exact (Touches.refl [] s).settled h (by decide)

theorem execEraseDone_touches {s t : State} (h : execEraseDone s = .next t) : Touches [.olu, .fs, .sq, .store] s t := by
  unfold execEraseDone at h
  split at h
  · exact Touches.settled (bs := [.olu, .fs, .sq, .store]) (by constructor <;> simp) h (by decide)
  · exact (Touches.refl [] s).settled h (by decide)

theorem execFilmArbiter_touches {s t : State} (h : execFilmArbiter s = .next t) : Touches [.olu, .fdm, .ch, .fs, .ex, .sa] s t := by
  unfold execFilmArbiter at h
  split at h
  · exact (State.arbitrate_touches _ _).settled h (by decide)
  · exact (Touches.refl [] s).settled h (by decide)

theorem execRecordSent_touches {s t : State} (h : execRecordSent s = .next t) : Touches [.olu, .fs, .ex, .sa] s t := by
  unfold execRecordSent at h
  split at h
  · exact (Touches.refl [] s).settled h (by decide)
  · refine (Touches.comp (bs := [.sa]) (ds := [.fs, .ex, .sa]) ?_ (State.recordSent_touches _ _) (by decide) (by decide)).settled h
      (by decide)
    constructor <;> simp

theorem execUnitFault_touches {k : Byte} {s t : State} (h : execUnitFault k s = .next t) :
    Touches [.olu, .fdm, .fs, .sq, .ex, .sa] s t :=
  ((s.returnByte_touches _).trans (State.returnByte_touches _ _)).settled h (by decide)

theorem execExposureTimeout_touches {s t : State} (h : execExposureTimeout s = .next t) :
    Touches [.olu, .fdm, .fs, .sq, .ex, .sa, .time] s t := by
  unfold execExposureTimeout at h
  split at h
  · exact (Touches.refl [] s).settled h (by decide)
  · refine (Touches.comp (bs := [.time]) (ds := [.olu, .fdm, .fs, .sq, .ex, .sa, .time]) ?_ (State.enterFaulted_touches _ _ _)
      (by decide) (by decide)).settled h (by decide)
    constructor <;> simp

theorem execRowOpenDone_touches {s t : State} (h : execRowOpenDone s = .next t) : Touches [.olu, .fs] s t := by
  unfold execRowOpenDone at h
  split at h
  · exact Touches.settled (bs := [.fs]) (by constructor <;> simp) h (by decide)
  · exact (Touches.refl [] s).settled h (by decide)

theorem execHoldDeadlineExpiry_touches {b : Fin 8} {s t : State} (h : execHoldDeadlineExpiry b s = .next t) :
    Touches [.olu, .fs, .time] s t := by
  unfold execHoldDeadlineExpiry at h
  split at h
  · exact Touches.settled (bs := [.fs, .time]) (by constructor <;> simp) h (by decide)
  · exact (Touches.refl [] s).settled h (by decide)

theorem execResetLineRelease_touches {s t : State} (h : execResetLineRelease s = .next t) : Touches [.olu, .fs, .time] s t := by
  unfold execResetLineRelease at h
  split at h
  · exact Touches.settled (bs := [.olu, .fs, .time]) (by constructor <;> simp) h (by decide)
  · exact (Touches.refl [] s).settled h (by decide)

theorem execStartupEnd_touches {s t : State} (h : execStartupEnd s = .next t) : Touches [.olu] s t := by
  unfold execStartupEnd at h
  split at h
  · exact Touches.settled (bs := [.olu]) (by constructor <;> simp) h (by decide)
  · exact (Touches.refl [] s).settled h (by decide)

theorem execAttentionPulseExpiry_touches {s t : State} (h : execAttentionPulseExpiry s = .next t) :
    Touches [.olu, .time] s t := by
  unfold execAttentionPulseExpiry at h
  split at h
  · exact Touches.settled (bs := [.olu, .time]) (by constructor <;> simp) h (by decide)
  · exact (Touches.refl [] s).settled h (by decide)

theorem execNoticeSent_touches {s t : State} (h : execNoticeSent s = .next t) : Touches [.olu] s t := by
  unfold execNoticeSent at h
  split at h
  · split at h
    · exact (Touches.refl [] s).settled h (by decide)
    · exact Touches.settled (bs := [.olu]) (by constructor <;> simp) h (by decide)
  · exact (Touches.refl [] s).settled h (by decide)

/-- The bytes that arrive on the receive pair change the order link alone. -/
theorem execBytes_touches {bytes : Bytes} {s t : State} (h : execFrameReceived bytes s = .next t) : Touches [.olu] s t :=
  (s.rxBytes_touches bytes).settled h (by decide)

theorem execBankCloseDone_touches {b : Fin 8} {s t : State} (h : execBankCloseDone b s = .next t) : Touches [.olu, .fs] s t :=
  Touches.settled (bs := [.fs]) (by constructor <;> simp) h (by decide)

theorem execReturnByte_touches {b : Byte} {s t : State} (h : execUnknownReturnByte b s = .next t) :
    Touches [.olu, .fdm, .fs, .sq, .ex, .sa] s t :=
  (s.returnByte_touches b).settled h (by decide)

/-- What a command may change. -/
theorem exec_touches {i : Instr} {s t : State} (h : exec i s = .next t) : Touches (blocksOf i) s t := by
  cases i with
  | resetLineRelease => exact execResetLineRelease_touches h
  | startupEnd => exact execStartupEnd_touches h
  | headerReceived bytes => exact execBytes_touches h
  | huntCandidate bytes => exact execBytes_touches h
  | frameReceived bytes => exact execBytes_touches h
  | attentionPulseExpiry => exact execAttentionPulseExpiry_touches h
  | noticeSent => exact execNoticeSent_touches h
  | arbiterChoice => exact execArbiterChoice_touches h
  | lineDelivery => exact execLineDelivery_touches h
  | compositionAbandon => exact execCompositionAbandon_touches h
  | mountLoadBegin => exact execMountLoadBegin_touches h
  | fetchChoice => exact execFetchChoice_touches h
  | fetchRequestEntry => exact execFetchRequestEntry_touches h
  | rowOpenDone => exact execRowOpenDone_touches h
  | transferComplete => exact execTransferComplete_touches h
  | holdDeadlineExpiry b => exact execHoldDeadlineExpiry_touches h
  | bankCloseDone b => exact execBankCloseDone_touches h
  | programLineDone => exact execProgramLineDone_touches h
  | erasePaused => exact execErasePaused_touches h
  | eraseDone => exact execEraseDone_touches h
  | filmArbiter => exact execFilmArbiter_touches h
  | recordSent => exact execRecordSent_touches h
  | unitDone => exact execReturnByte_touches h
  | unitFault k => exact execUnitFault_touches h
  | exposureTimeout => exact execExposureTimeout_touches h
  | unknownReturnByte b => exact execReturnByte_touches h
  | _ => exact Touches.all s t

/-! ### Laws -/

/-- A law reads no block but those listed. -/
def Reads (rs : List Block) (P : State → Prop) : Prop :=
  ∀ bs s t, Touches bs s t → (∀ b ∈ rs, b ∉ bs) → P s → P t

/-- The events that are commands of their own: no order, no dispatch of one and no reset. -/
def isEvent (i : Instr) : Prop :=
  orderOf i = none ∧ i ≠ .dispatch ∧ i ≠ .powerOn ∧ i ≠ .resetLineAssert ∧ i ≠ .answerSent

/-! ### What a command does besides the link's own part -/

/-- What a command that is no event does, but for the link's own record: nothing, an order's act, or a reset. -/
inductive Origin (s t : State) : Prop
  | link : Touches [.olu] s t → Origin s t
  | order (tag target : Byte) (o : Order) (u : State) : Touches [.olu] s u → Touches [.olu] (o.act tag target u).1 t → Origin s t
  | reset (record : ResetRecord) (phase : Phase) : Touches [.olu] (s.resetTo record phase) t → Origin s t

/-- What the link does after. -/
theorem Origin.after {s t u : State} (h : Origin s t) (k : Touches [.olu] t u) : Origin s u := by
  cases h with
  | link ht => exact .link (ht.trans k)
  | order tag target o v hv ht => exact .order tag target o v hv (ht.trans k)
  | reset record phase ht => exact .reset record phase (ht.trans k)

/-- R173, R174: the dispatcher takes an order. -/
theorem State.takeOrder_origin {s u : State} (hu : Touches [.olu] s u) (h : Head) (o : Order) : Origin s (u.takeOrder h o) := by
  unfold State.takeOrder
  split
  · exact .order _ _ o _ (hu.trans (u.inHand_touches h)) (State.answer_touches _ _)
  · exact .link ((hu.trans (u.inHand_touches h)).trans (State.answer_touches _ _))

theorem State.takeFrame_origin {s u : State} (hu : Touches [.olu] s u) (f : Frame) : Origin s (u.takeFrame f) := by
  have refused (r : Reply) : Origin s ((u.inHand ⟨f.kind, f.tag, f.target⟩).answer r) :=
    .link ((hu.trans (u.inHand_touches _)).trans (State.answer_touches _ _))
  unfold State.takeFrame
  dsimp only
  split
  · exact refused _
  · split
    · exact State.takeOrder_origin hu _ _
    · exact refused _
    · exact refused _

/-- Log entry 7: an order is sent as one good frame. -/
theorem State.giveOrder_origin (tag target : Byte) (o : Order) (s : State) : Origin s (s.giveOrder tag target o) := by
  unfold State.giveOrder
  dsimp only
  split
  · split
    · exact State.takeOrder_origin (.refl _ s) _ _
    · exact .link (s.setOlu_touches _)
  · exact .link (s.rxBytes_touches _)

/-- A command that is an order gives it to the link. -/
theorem exec_order {i : Instr} {tag target : Byte} {o : Order} (h : orderOf i = some (tag, target, o)) (s : State) :
    exec i s = .next (s.giveOrder tag target o).settle := by
  cases i <;> cases h <;> rfl

theorem execDispatch_origin {s t : State} (h : execDispatch s = .next t) : Origin s t := by
  unfold execDispatch at h
  split at h
  · cases h
    exact (State.takeFrame_origin (s.setOlu_touches _) _).after (State.settle_touches _)
  · cases h
    exact .link s.settle_touches

theorem execResetLineAssert_origin {s t : State} (h : execResetLineAssert s = .next t) : Origin s t := by
  unfold execResetLineAssert at h
  split at h
  · cases h
    exact .link s.settle_touches
  · cases h
    exact .reset _ _ ((State.setOlu_touches _ _).trans (State.settle_touches _))

theorem execAnswerSent_origin {s t : State} (h : execAnswerSent s = .next t) : Origin s t := by
  unfold execAnswerSent at h
  split at h
  · split at h
    · split at h
      · cases h
        exact .reset _ _ (State.settle_touches _)
      · cases h
        exact .link ((s.setOlu_touches _).trans (State.settle_touches _))
    · cases h
      exact .link s.settle_touches
  · cases h
    exact .link s.settle_touches

/-- Every command is an event, or does the link's own part and at most one order's act or a reset. -/
theorem exec_origin {i : Instr} {s t : State} (h : exec i s = .next t) : isEvent i ∨ Origin s t := by
  cases ho : orderOf i with
  | some q =>
    rw [exec_order (tag := q.1) (target := q.2.1) (o := q.2.2) ho] at h
    cases h
    exact .inr ((s.giveOrder_origin _ _ _).after (State.settle_touches _))
  | none =>
    by_cases he : isEvent i
    · exact .inl he
    · simp only [isEvent, ho, true_and, not_and_or, not_not] at he
      obtain rfl | rfl | rfl | rfl := he
      · exact .inr (execDispatch_origin h)
      · cases h
        exact .inr (.reset _ _ (State.settle_touches _))
      · exact .inr (execResetLineAssert_origin h)
      · exact .inr (execAnswerSent_origin h)

/-- A law that reads the blocks listed, the order link not among them, is kept by all that may change one of them: the blocks that own
the orders, the events, the resets, the engine's acts and the unit's acknowledgements. -/
structure Kept (rs : List Block) (P : State → Prop) : Prop where
  reads : Reads rs P
  link : .olu ∉ rs
  act : ∀ tag target (o : Order) (s : State), (∃ b ∈ rs, b ∈ o.blocks) → P s → P (o.act tag target s).1
  event : ∀ (i : Instr) (s t : State), isEvent i → (∃ b ∈ rs, b ∈ blocksOf i) → P s → exec i s = .next t → P t
  reset : ∀ record phase (s : State), P s → P (s.resetTo record phase)
  engine : (∃ b ∈ rs, b ∈ [Block.fdm, .ce]) → ∀ s t : State, P s → s.readOne = some t → P t
  acks : .sa ∈ rs → ∀ s : State, P s → P s.unitAcks

section
variable {rs : List Block} {P : State → Prop}

/-- What the order link does to itself keeps the law. -/
theorem Kept.olu (k : Kept rs P) {s t : State} (h : Touches [.olu] s t) (hs : P s) : P t :=
  k.reads _ _ _ h (fun _ m e => k.link (List.mem_singleton.1 e ▸ m)) hs

/-- Every command keeps such a law. -/
theorem Kept.exec (k : Kept rs P) {i : Instr} {s t : State} (hs : P s) (h : exec i s = .next t) : P t := by
  obtain he | ho := exec_origin h
  · by_cases hb : ∃ b ∈ rs, b ∈ blocksOf i
    · exact k.event i s t he hb hs h
    · exact k.reads _ _ _ (exec_touches h) (fun b m e => hb ⟨b, m, e⟩) hs
  · cases ho with
    | link ht => exact k.olu ht hs
    | order tag target o u hu ht =>
      refine k.olu ht ?_
      by_cases hb : ∃ b ∈ rs, b ∈ o.blocks
      · exact k.act _ _ o _ hb (k.olu hu hs)
      · exact k.reads _ _ _ (o.act_touches _ _ _) (fun b m e => hb ⟨b, m, e⟩) (k.olu hu hs)
    | reset record phase ht => exact k.olu ht (k.reset record phase s hs)

/-- Every step keeps such a law. -/
theorem Kept.step (k : Kept rs P) {s t : State} (hs : P s) (h : step s = .next t) : P t := by
  unfold Machine.step at h
  split at h
  · exact k.exec (k.reads [] s _ (by constructor <;> simp) (by simp) hs) h
  · cases h
    refine k.olu (State.linkSends_touches _) ?_
    have hr : P s.readNext := by
      by_cases hb : ∃ b ∈ rs, b ∈ [Block.fdm, .ce]
      · exact State.readNext_keeps (k.engine hb) hs
      · exact k.reads _ _ _ s.readNext_touches (fun b m e => hb ⟨b, m, e⟩) hs
    by_cases hsa : .sa ∈ rs
    · exact k.acks hsa _ hr
    · exact k.reads _ _ _ (State.unitAcks_touches _) (fun b m e => hsa (List.mem_singleton.1 e ▸ m)) hr

end

end Sys2Proof.Machine
end


section
/-! PROOF. What each event can do: one inversion lemma for each, that later proofs use in place of its definition. -/

namespace Sys2Proof.Machine

/-! ### The sequencer's reports -/

/-- R123: a program line has been programmed: its bytes stand in the store, its bank is released, and it has left the buffer. -/
def State.lineWritten (l : ProgLine) (rest : List ProgLine) (s : State) : State :=
  { s.writeLine l with
    fs := s.fs.releaseBank (bankOf l.page), sq := { s.sq with buffer := rest, programmed := held16 (s.sq.programmed + 1) } }

/-- PROGRAM_LINE_DONE: ignored, or the line in progress is written and its session goes on or ends. -/
theorem execProgramLineDone_cases {s t : State} (h : execProgramLineDone s = .next t) :
    t = s.settle ∨ ∃ l rest, s.sq.state = .programming ∧ s.sq.step = .sent ∧ s.sq.buffer = l :: rest ∧
      ((rest = [] ∧ t = (s.lineWritten l []).endSession.settle) ∨
        ∃ m more, rest = m :: more ∧ t = ((s.lineWritten l rest).beginLine m).settle) := by
  unfold execProgramLineDone at h
  split at h
  · next l rest h1 h2 h3 =>
    refine .inr ⟨l, rest, h1, h2, h3, ?_⟩
    dsimp only at h
    split at h
    · exact .inl ⟨rfl, (Host.Outcome.next.inj h).symm⟩
    · exact .inr ⟨_, _, rfl, (Host.Outcome.next.inj h).symm⟩
  · exact .inl (Host.Outcome.next.inj h).symm

/-- R127: a running erase has paused: the banks are released. -/
def State.erasePaused (b : Nat) (s : State) : State :=
  { s.undefine (262144 * b) 262144 with
    fs := s.fs.releaseAll, sq := { s.sq with state := .eraseSuspended, suspendAwaited := false } }

theorem State.erasePaused_store (b : Nat) (s : State) :
    (s.erasePaused b).store = (s.undefine (262144 * b) 262144).store := rfl

/-- ERASE_PAUSED: ignored, or the running erase pauses, and resumes when no fetch is left. -/
theorem execErasePaused_cases {s t : State} (h : execErasePaused s = .next t) :
    t = s.settle ∨ ∃ b, s.sq.state = .erasing ∧ s.sq.suspendAwaited = true ∧ s.sq.eraseBlock = some b ∧
      t = (s.erasePaused b).fetchesIdle.settle := by
  unfold execErasePaused at h
  split at h
  · next b h1 h2 h3 => exact .inr ⟨b, h1, h2, h3, (Host.Outcome.next.inj h).symm⟩
  · exact .inl (Host.Outcome.next.inj h).symm

/-- R126: an erase has ended: its block is blank, the banks are released, and the sequencer is IDLE. -/
def State.blockErased (b : Nat) (s : State) : State :=
  State.post (.storeDone (.erase b s.sq.suspendCount) .done s.sq.kinds)
    { s.blankBlock b with
      fs := s.fs.releaseAll,
      sq := { s.sq with state := .idle, eraseBlock := none, eraseSent := false, suspendAwaited := false,
                        interrupted := if s.sq.interrupted = some b then none else s.sq.interrupted } }

theorem State.blockErased_store (b : Nat) (s : State) : (s.blockErased b).store = (s.blankBlock b).store := rfl

/-- ERASE_DONE: ignored, or the erase sent has ended. -/
theorem execEraseDone_cases {s t : State} (h : execEraseDone s = .next t) :
    t = s.settle ∨ ∃ b, s.sq.state = .erasing ∧ s.sq.eraseSent = true ∧ s.sq.eraseBlock = some b ∧
      t = (s.blockErased b).settle := by
  unfold execEraseDone at h
  split at h
  · next b h1 h2 h3 => exact .inr ⟨b, h1, h2, h3, (Host.Outcome.next.inj h).symm⟩
  · exact .inl (Host.Outcome.next.inj h).symm

/-! ### Fetches -/

/-- FETCH_CHOICE: nothing, a request served, or a wait reported to the sequencer. -/
theorem execFetchChoice_cases {s t : State} (h : execFetchChoice s = .next t) :
    t = s.settle ∨ (∃ r, s.fs.path = .free ∧ s.fs.chosen = some r ∧ t = State.settle { s with fs := s.fs.serve r }) ∨
      (s.fs.path = .free ∧ s.fs.chosen = none ∧ t = s.fetchWaiting.settle) := by
  unfold execFetchChoice at h
  split at h
  · next hp =>
    split at h
    · next r hr => exact .inr (.inl ⟨r, hp.1, hr, (Host.Outcome.next.inj h).symm⟩)
    · next hr => exact .inr (.inr ⟨hp.1, hr, (Host.Outcome.next.inj h).symm⟩)
  · exact .inl (Host.Outcome.next.inj h).symm

/-- R109: the request held first is in the queue. -/
def Fs.enter (f : Fs) (r : FetchReq) (rest : List FetchReq) : Fs :=
  { f with queue := f.queue ++ [{ r with bypass := 0 }], held := rest }

/-- FETCH_REQUEST_ENTRY: nothing, or the request held first enters the queue. -/
theorem execFetchRequestEntry_cases {s t : State} (h : execFetchRequestEntry s = .next t) :
    t = s.settle ∨ ∃ r rest, s.fs.held = r :: rest ∧ s.fs.queue.length < 32 ∧
      t = (State.entered r.requester { s with fs := s.fs.enter r rest }).settle := by
  unfold execFetchRequestEntry at h
  split at h
  · exact .inl (Host.Outcome.next.inj h).symm
  · next r rest hr =>
    split at h
    · next hq => exact .inr ⟨r, rest, hr, hq, (Host.Outcome.next.inj h).symm⟩
    · exact .inl (Host.Outcome.next.inj h).symm

/-- R106, R113: a transfer has completed, its data not yet delivered. -/
def State.transferred (r : FetchReq) (s : State) : State := { s with fs := s.fs.completed s.time r, sq := s.sq.sendWaiting }

/-- The bytes that a request names. -/
def State.fetched (r : FetchReq) (s : State) : Bytes := readBytes s.store (4096 * r.page + r.offset) r.length

/-- TRANSFER_COMPLETE: nothing, or the transfer completes, its data is delivered unless it is wanted no more, and fetches idle is
reported. -/
theorem execTransferComplete_cases {s t : State} (h : execTransferComplete s = .next t) :
    t = s.settle ∨ ∃ r wanted, s.fs.path = .moving r wanted ∧
      t = ((if wanted then (s.transferred r).deliver r (s.fetched r) else s.transferred r).idleReport
        (s.transferred r).fs.isIdle).settle := by
  unfold execTransferComplete at h
  split at h
  · next r wanted hp =>
    split at h
    · cases h
    · exact .inr ⟨r, wanted, hp, (Host.Outcome.next.inj h).symm⟩
  · exact .inl (Host.Outcome.next.inj h).symm

/-! ### Mounting and composition -/

/-- MOUNT_LOAD_BEGIN: nothing, or the load of the head request begins in the position chosen. -/
theorem execMountLoadBegin_cases {s t : State} (h : execMountLoadBegin s = .next t) :
    t = s.settle ∨ ∃ q rest p, s.fdm.load = none ∧ s.fdm.requests = q :: rest ∧ s.fdm.choose q.face = some p ∧
      t = (s.beginLoad q p).settle := by
  unfold execMountLoadBegin at h
  split at h
  · next q rest h1 h2 =>
    split at h
    · next p hp => exact .inr ⟨q, rest, p, h1, h2, hp, (Host.Outcome.next.inj h).symm⟩
    · exact .inl (Host.Outcome.next.inj h).symm
  · exact .inl (Host.Outcome.next.inj h).symm

/-- ARBITER_CHOICE: nothing, or the channel next served has its composition begun in a free slot. -/
theorem execArbiterChoice_cases {s t : State} (h : execArbiterChoice s = .next t) :
    t = s.settle ∨ ∃ c slot, s.ce.comp = none ∧ s.nextServed = some c ∧ s.freeSlot = some slot ∧ t = (s.serve c slot).settle := by
  unfold execArbiterChoice at h
  split at h
  · next c slot h1 h2 h3 => exact .inr ⟨c, slot, h1, h2, h3, (Host.Outcome.next.inj h).symm⟩
  · exact .inl (Host.Outcome.next.inj h).symm

/-- LINE_DELIVERY: the engine reads on; then nothing, or its composition ends as discarded, or delivers its line. -/
theorem execLineDelivery_cases {s t : State} (h : execLineDelivery s = .next t) :
    t = s.readOn.settle ∨ ∃ c, s.readOn.ce.comp = some c ∧
      (t = (s.readOn.endWithout c .discarded).settle ∨
        ∃ e, c.decided s.readOn.metrics = some e ∧ t = (s.readOn.deliverLine c e).settle) := by
  unfold execLineDelivery at h
  dsimp only at h
  split at h
  · exact .inl (Host.Outcome.next.inj h).symm
  · next c hc =>
    split at h
    · exact .inr ⟨c, hc, .inl (Host.Outcome.next.inj h).symm⟩
    · split at h
      · next e he => exact .inr ⟨c, hc, .inr ⟨e, he, (Host.Outcome.next.inj h).symm⟩⟩
      · exact .inl (Host.Outcome.next.inj h).symm

/-- COMPOSITION_ABANDON: the engine reads on; then nothing, or its composition ends without a line. -/
theorem execCompositionAbandon_cases {s t : State} (h : execCompositionAbandon s = .next t) :
    t = s.readOn.settle ∨ ∃ c e, s.readOn.ce.comp = some c ∧ t = (s.readOn.endWithout c e).settle := by
  unfold execCompositionAbandon at h
  dsimp only at h
  split at h
  · exact .inl (Host.Outcome.next.inj h).symm
  · next c hc =>
    split at h
    · exact .inr ⟨c, _, hc, (Host.Outcome.next.inj h).symm⟩
    · split at h
      · exact .inl (Host.Outcome.next.inj h).symm
      · split at h <;> exact .inr ⟨c, _, hc, (Host.Outcome.next.inj h).symm⟩

/-! ### The exposure controller -/

theorem execFilmArbiter_cases {s t : State} (h : execFilmArbiter s = .next t) :
    t = s.settle ∨ (s.ex.state = .idle ∧ t = (State.arbitrate (s.ex.queued.length + 1) s).settle) := by
  unfold execFilmArbiter at h
  split at h
  · next hi => exact .inr ⟨hi, (Host.Outcome.next.inj h).symm⟩
  · exact .inl (Host.Outcome.next.inj h).symm

theorem execRecordSent_cases {s t : State} (h : execRecordSent s = .next t) :
    t = s.settle ∨ ∃ r rest, s.sa.lane = r :: rest ∧
      t = (State.recordSent r { s with sa := { s.sa with lane := rest, acked := 0 } }).settle := by
  unfold execRecordSent at h
  split at h
  · exact .inl (Host.Outcome.next.inj h).symm
  · next r rest hl => exact .inr ⟨r, rest, hl, (Host.Outcome.next.inj h).symm⟩

theorem execExposureTimeout_cases {s t : State} (h : execExposureTimeout s = .next t) :
    t = s.settle ∨ ∃ d, s.ex.timer = some d ∧
      t = (State.enterFaulted .timeout .timeout { s with time := max s.time d }).settle := by
  unfold execExposureTimeout at h
  split at h
  · exact .inl (Host.Outcome.next.inj h).symm
  · next d hd => exact .inr ⟨d, hd, (Host.Outcome.next.inj h).symm⟩

/-- R157, R159: a byte on the return lane: nothing, the second byte of a FAULT, a DONE, or the first byte of a FAULT. -/
theorem State.returnByte_cases (b : Byte) (s : State) :
    s.returnByte b = s ∨
      (s.sa.returnPartial = true ∧ s.returnByte b = State.takeFault (faultKind b) { s with sa := { s.sa with returnPartial := false } }) ∨
      s.returnByte b = s.takeDone ∨ s.returnByte b = { s with sa := { s.sa with returnPartial := true } } := by
  unfold State.returnByte
  split
  · exact .inl rfl
  · split
    · next hp => exact .inr (.inl ⟨hp, rfl⟩)
    · split
      · exact .inr (.inr (.inl rfl))
      · split
        · exact .inr (.inr (.inr rfl))
        · exact .inl rfl

/-- What a fault, a DONE and a change of the return lane keep, every byte of the return lane keeps. -/
theorem State.returnByte_keeps {P : State → Prop} {s : State} (hs : P s)
    (sa : ∀ (u : State) (p : Bool), P u → P { u with sa := { u.sa with returnPartial := p } })
    (fault : ∀ (u : State) (c : FaultCause), P u → P (u.takeFault c)) (done : ∀ u : State, P u → P u.takeDone) (b : Byte) :
    P (s.returnByte b) := by
  obtain e | ⟨-, e⟩ | e | e := s.returnByte_cases b <;> rw [e]
  · exact hs
  · exact fault _ _ (sa s false hs)
  · exact done s hs
  · exact sa s true hs

end Sys2Proof.Machine
end

section
/-! PROOF. The laws of the store (log entry 1) and of the face regions (R18, R19), kept by every step. -/

namespace Sys2Proof.Machine

/-! ### The store's canonical form -/

/-- The store changes only at the sequencer's operations, an abort and a reset, each time by a splice. -/
theorem storeLaw_kept : Kept [.store] StoreLaw where
  reads bs s t h hb := by
    unfold StoreLaw
    rw [h.store (hb _ (by decide))]
    exact id
  link := by decide
  act tag target o s hb hs := by
    cases o with
    | storeAbort => exact Memory.wf_stopStore hs
    | _ => simp [Order.blocks] at hb
  event i s t hi hb hs h := by
    unfold StoreLaw at *
    cases i with
    | programLineDone =>
      obtain rfl | ⟨l, rest, -, -, -, ⟨-, rfl⟩ | ⟨m, more, -, rfl⟩⟩ := execProgramLineDone_cases h
      · exact hs
      · exact Memory.wf_writeLine hs l
      · exact Memory.wf_writeLine hs l
    | erasePaused =>
      obtain rfl | ⟨b, -, -, -, rfl⟩ := execErasePaused_cases h
      · exact hs
      · rw [State.settle_store, (State.fetchesIdle_touches _).store (by decide), State.erasePaused_store]
        exact Memory.wf_undefine hs _ _
    | eraseDone =>
      obtain rfl | ⟨b, -, -, -, rfl⟩ := execEraseDone_cases h
      · exact hs
      · rw [State.settle_store, State.blockErased_store]
        exact Memory.wf_blankBlock hs b
    | _ => simp_all [blocksOf, isEvent, orderOf]
  reset record phase s hs := Memory.wf_resetTo hs record phase
  engine hb := absurd hb (by decide)
  acks hb := absurd hb (by decide)

/-- Settles O51. -/
theorem stepKeepsStoreLaw : Obligations.StepKeepsStoreLaw := fun _ _ hs h => storeLaw_kept.step hs h

end Sys2Proof.Machine
end


section
/-! PROOF. The law of the face regions (R18, R19), kept by every step: but for FACE_DEFINE and FACE_WITHDRAW an entry of the directory
stays as it is or becomes UNDEFINED. -/

namespace Sys2Proof.Machine

/-! ### Entries that stay or become UNDEFINED -/

/-- Every entry of the directory stays as it is or becomes UNDEFINED. -/
def DirShrinks (d e : Fdm) : Prop := ∀ f : Fin 128, e.dir[f] = d.dir[f] ∨ e.dir[f] = {}

theorem DirShrinks.of_eq {d e : Fdm} (h : e.dir = d.dir) : DirShrinks d e := fun f => .inl (by rw [h])

theorem DirShrinks.trans {c d e : Fdm} (h : DirShrinks c d) (k : DirShrinks d e) : DirShrinks c e := by
  intro f
  obtain e1 | e1 := k f
  · rw [e1]; exact h f
  · exact .inr e1

/-- A change that leaves the directory and mount unit as it is. -/
theorem DirShrinks.of_touches {bs : List Block} {s t : State} (h : Touches bs s t) (hb : .fdm ∉ bs) : DirShrinks s.fdm t.fdm :=
  .of_eq (by rw [h.fdm hb])

theorem Fdm.undefineFace_shrinks (d : Fdm) (f : Fin 128) : DirShrinks d (d.undefineFace f) := by
  intro g
  simp only [Fdm.undefineFace, setAt_get]
  split
  · exact .inr rfl
  · exact .inl rfl

theorem Fdm.retireFrom_shrinks (d : Fdm) (p : Fin 8) : DirShrinks d (d.retireFrom p).1 := by
  unfold Fdm.retireFrom
  split
  · split
    · exact (d.emptyPos p).undefineFace_shrinks _
    · exact .of_eq rfl
  · exact .of_eq rfl

theorem Fdm.decRefs_shrinks (ps : List (Fin 8)) (d : Fdm) : DirShrinks d (Fdm.decRefs ps d).1 := by
  induction ps generalizing d with
  | nil => exact .of_eq rfl
  | cons p ps ih =>
    refine DirShrinks.trans ?_ (ih _)
    unfold Fdm.decRef
    dsimp only
    split
    · exact Fdm.retireFrom_shrinks _ p
    · exact .of_eq rfl

theorem pumpMount_dir (n : Nat) (d : Fdm) (f : Fs) : (pumpMount n d f).1.dir = d.dir := by
  induction n generalizing d f with
  | zero => rfl
  | succ n ih =>
    unfold pumpMount
    split
    · split
      · split
        · exact ih _ _
        · rfl
      · rfl
    · rfl

theorem Fdm.requestMount_dir (d : Fdm) (f : Fin 128) (c : Fin 4) : (d.requestMount f c).dir = d.dir := by
  unfold Fdm.requestMount
  split <;> rfl

theorem Ending.request_dir (e : Ending) (c : Fin 4) (d : Fdm) : (e.request c d).dir = d.dir := by
  unfold Ending.request
  split
  · exact d.requestMount_dir _ c
  · rfl

theorem Fdm.foldl_touch_dir (ps : List (Fin 8)) (d : Fdm) : (ps.foldl Fdm.touch d).dir = d.dir := by
  induction ps generalizing d with
  | nil => rfl
  | cons p ps ih => exact ih _

/-! ### The operations that change the directory and mount unit -/

theorem State.release_shrinks (used : List (Fin 8)) (s : State) : DirShrinks s.fdm (s.release used).fdm := by
  simpa [State.release] using s.fdm.decRefs_shrinks used

theorem State.readOne_shrinks {s t : State} (h : s.readOne = some t) : DirShrinks s.fdm t.fdm := by
  obtain ⟨-, e | ⟨p, e⟩⟩ := s.readOne_frame h
  · exact .of_eq (by rw [e])
  · exact .of_eq (by rw [e]; rfl)

theorem State.readNext_shrinks (s : State) : DirShrinks s.fdm s.readNext.fdm :=
  State.readNext_keeps (P := fun t => DirShrinks s.fdm t.fdm) (fun _ _ h hr => h.trans (State.readOne_shrinks hr)) (.of_eq rfl)

theorem State.readOn_shrinks (s : State) : DirShrinks s.fdm s.readOn.fdm :=
  State.readOn_keeps (P := fun t => DirShrinks s.fdm t.fdm) (fun _ _ h hr => h.trans (State.readOne_shrinks hr)) (.of_eq rfl)

theorem State.serve_shrinks (c : Fin 4) (slot : Fin 16) (s : State) : DirShrinks s.fdm (s.serve c slot).fdm :=
  State.readNext_shrinks _

theorem State.deliverLine_shrinks (c : Composition) (e : LineEnd) (s : State) : DirShrinks s.fdm (s.deliverLine c e).fdm := by
  unfold State.deliverLine
  refine .of_eq ?_
  rw [(State.restate_touches _ _).fdm (by decide)]
  exact Fdm.foldl_touch_dir _ _

theorem State.endWithout_shrinks (c : Composition) (e : Ending) (s : State) : DirShrinks s.fdm (s.endWithout c e).fdm := by
  have h := s.fdm.decRefs_shrinks c.used
  unfold State.endWithout
  dsimp only
  split
  · rw [(State.postEither_touches _ _ _).fdm (by decide)]
    exact h
  · rw [(State.postEither_touches _ _ _).fdm (by decide)]
    exact h.trans (.of_eq (e.request_dir _ _))

theorem State.pumpLoader_shrinks (s : State) : DirShrinks s.fdm s.pumpLoader.fdm := .of_eq (pumpMount_dir _ _ _)

theorem endLoad_dir (d : Fdm) (l : Load) (fail : Option MountCause) : (endLoad d l fail).1.dir = d.dir := by
  unfold endLoad
  cases fail <;> rfl

theorem State.loadEnds_shrinks (l : Load) (fail : Option MountCause) (s : State) :
    DirShrinks s.fdm (s.loadEnds l fail).fdm := by
  unfold State.loadEnds
  dsimp only
  rw [(State.wake_touches _ _).fdm (by decide), State.postAll_fdm]
  exact (DirShrinks.of_eq (endLoad_dir s.fdm l fail)).trans (Fdm.retireFrom_shrinks _ l.pos)

theorem State.mountPage_shrinks (r : FetchReq) (data : Bytes) (s : State) : DirShrinks s.fdm (s.mountPage r data).fdm := by
  have ends {d : Fdm} (hd : d.dir = s.fdm.dir) (l : Load) (fail : Option MountCause) :
      DirShrinks s.fdm (State.loadEnds l fail { s with fdm := d }).fdm :=
    (DirShrinks.of_eq hd).trans (State.loadEnds_shrinks l fail { s with fdm := d })
  have pumps {d : Fdm} (hd : d.dir = s.fdm.dir) : DirShrinks s.fdm (State.pumpLoader { s with fdm := d }).fdm :=
    (DirShrinks.of_eq hd).trans (State.pumpLoader_shrinks { s with fdm := d })
  unfold State.mountPage
  split
  · exact .of_eq rfl
  · dsimp only
    split
    · split
      · refine ends ?_ _ _
        rfl
      · split
        · refine ends ?_ _ _
          rfl
        · refine pumps ?_
          rfl
    · split
      · refine ends ?_ _ _
        rfl
      · refine pumps ?_
        rfl

theorem State.entered_shrinks (q : Requester) (s : State) : DirShrinks s.fdm (s.entered q).fdm := by
  cases q with
  | mount => exact s.pumpLoader_shrinks
  | strike => exact .of_touches s.pumpSa_touches (by decide)
  | sequencer => exact .of_eq rfl
  | link => exact .of_touches (s.answer_touches (.accept [])) (by decide)

theorem State.deliver_shrinks (r : FetchReq) (data : Bytes) (s : State) : DirShrinks s.fdm (s.deliver r data).fdm := by
  unfold State.deliver
  split
  · exact s.mountPage_shrinks r data
  · exact .of_touches (s.masterArrived_touches r data) (by decide)
  · exact .of_touches (s.sequencerRead_touches data) (by decide)
  · exact .of_eq rfl

theorem State.loseQueued_shrinks (qs : List QueuedLine) (s : State) : DirShrinks s.fdm (s.loseQueued qs).fdm := by
  induction qs generalizing s with
  | nil => exact .of_eq rfl
  | cons q qs ih => exact (State.release_shrinks q.line.used (s.post (.lineLost q.line.header .reach))).trans (ih _)

theorem State.reachHold_dir (c : Fin 4) (s : State) : (s.reachHold c).fdm.dir = s.fdm.dir := by
  unfold State.reachHold
  split <;> rfl

theorem State.arbitrate_shrinks (n : Nat) (s : State) : DirShrinks s.fdm (s.arbitrate n).fdm := by
  induction n generalizing s with
  | zero => exact .of_eq rfl
  | succ n ih =>
    unfold State.arbitrate
    split
    · exact .of_eq rfl
    · split
      · refine DirShrinks.trans ?_ (ih _)
        exact (s.loseQueued_shrinks _).trans (.of_eq (State.reachHold_dir _ _))
      · dsimp only
        exact .of_eq (by rw [(State.take_touches _ _).fdm (by decide)])

theorem State.takeDone_shrinks (s : State) : DirShrinks s.fdm s.takeDone.fdm := by
  unfold State.takeDone
  split
  · exact .of_eq rfl
  · split
    · next x _ _ => exact State.release_shrinks x.line.used _
    · exact .of_touches s.calibrated_touches (by decide)
    · exact .of_eq rfl
    · exact .of_eq rfl

theorem State.loseExposing_shrinks (why : LossReason) (s : State) : DirShrinks s.fdm (s.loseExposing why).fdm := by
  unfold State.loseExposing
  split
  · next x _ _ => exact State.release_shrinks x.line.used _
  · exact .of_eq rfl

theorem State.enterFaulted_shrinks (cause : FaultCause) (why : LossReason) (s : State) :
    DirShrinks s.fdm (s.enterFaulted cause why).fdm := by
  have h := s.stopPort.loseExposing_shrinks why
  rw [s.stopPort_touches.fdm (by decide)] at h
  unfold State.enterFaulted
  dsimp only
  rw [(State.fetchesIdle_touches _).fdm (by decide)]
  exact h

theorem State.takeFault_shrinks (cause : FaultCause) (s : State) : DirShrinks s.fdm (s.takeFault cause).fdm := by
  unfold State.takeFault
  split
  · exact .of_eq rfl
  · exact s.enterFaulted_shrinks _ _

theorem State.returnByte_shrinks (b : Byte) (s : State) : DirShrinks s.fdm (s.returnByte b).fdm :=
  State.returnByte_keeps (P := fun t => DirShrinks s.fdm t.fdm) (.of_eq rfl) (fun _ _ h => h)
    (fun u c h => h.trans (u.takeFault_shrinks c)) (fun u h => h.trans u.takeDone_shrinks) b

/-- R18: no event but FACE_DEFINE and FACE_WITHDRAW changes an entry otherwise than to UNDEFINED. -/
theorem exec_shrinks {i : Instr} {s t : State} (hi : isEvent i) (h : exec i s = .next t) : DirShrinks s.fdm t.fdm := by
  cases i with
  | arbiterChoice =>
    obtain rfl | ⟨c, slot, -, -, -, rfl⟩ := execArbiterChoice_cases h
    · exact .of_eq rfl
    · exact s.serve_shrinks c slot
  | lineDelivery =>
    obtain rfl | ⟨c, -, rfl | ⟨e, -, rfl⟩⟩ := execLineDelivery_cases h
    · exact s.readOn_shrinks
    · exact s.readOn_shrinks.trans (State.endWithout_shrinks _ _ _)
    · exact s.readOn_shrinks.trans (State.deliverLine_shrinks _ _ _)
  | compositionAbandon =>
    obtain rfl | ⟨c, e, -, rfl⟩ := execCompositionAbandon_cases h
    · exact s.readOn_shrinks
    · exact s.readOn_shrinks.trans (State.endWithout_shrinks _ _ _)
  | mountLoadBegin =>
    obtain rfl | ⟨q, rest, p, -, -, -, rfl⟩ := execMountLoadBegin_cases h
    · exact .of_eq rfl
    · exact .of_eq rfl
  | fetchRequestEntry =>
    obtain rfl | ⟨r, rest, -, -, rfl⟩ := execFetchRequestEntry_cases h
    · exact .of_eq rfl
    · exact State.entered_shrinks _ { s with fs := s.fs.enter r rest }
  | transferComplete =>
    obtain rfl | ⟨r, wanted, -, rfl⟩ := execTransferComplete_cases h
    · exact .of_eq rfl
    · rw [State.settle_fdm, (State.idleReport_touches _ _).fdm (by decide)]
      split
      · exact (s.transferred r).deliver_shrinks r _
      · exact .of_eq rfl
  | filmArbiter =>
    obtain rfl | ⟨-, rfl⟩ := execFilmArbiter_cases h
    · exact .of_eq rfl
    · exact s.arbitrate_shrinks _
  | unitDone =>
    cases h
    exact s.returnByte_shrinks _
  | unitFault k =>
    cases h
    exact (s.returnByte_shrinks _).trans (State.returnByte_shrinks _ _)
  | exposureTimeout =>
    obtain rfl | ⟨d, -, rfl⟩ := execExposureTimeout_cases h
    · exact .of_eq rfl
    · exact State.enterFaulted_shrinks _ _ { s with time := max s.time d }
  | unknownReturnByte b =>
    cases h
    exact s.returnByte_shrinks _
  | _ =>
    refine .of_touches (exec_touches h) ?_
    simp_all [blocksOf, isEvent, orderOf]

/-! ### The law -/

theorem overlaps_comm (b m c n : Nat) : overlaps b m c n = overlaps c n b m := Bool.and_comm _ _

/-- Entries that stay or become UNDEFINED keep the law of the regions. -/
theorem RegionLaw.shrinks {s t : State} (h : DirShrinks s.fdm t.fdm) (hs : RegionLaw s) : RegionLaw t := by
  intro f g hfg hf hg
  obtain ef | ef := h f
  · obtain eg | eg := h g
    · rw [ef] at hf
      rw [eg] at hg
      rw [ef, eg]
      exact hs f g hfg hf hg
    · rw [eg] at hg
      exact absurd rfl hg
  · rw [ef] at hf
    exact absurd rfl hf

/-- R19: an entry whose region overlaps none keeps the law. -/
theorem RegionLaw.define {s t : State} (hs : RegionLaw s) (f : Fin 128) (e : FaceEntry)
    (he : ∀ g : Fin 128, g ≠ f → s.fdm.dir[g].state ≠ .undefined →
      overlaps e.base e.size s.fdm.dir[g].base s.fdm.dir[g].size = false)
    (ht : t.fdm.dir = setAt s.fdm.dir f e) : RegionLaw t := by
  intro a b hab ha hb
  simp only [ht, setAt_get] at *
  by_cases h1 : a = f <;> by_cases h2 : b = f
  · exact absurd (h1.trans h2.symm) hab
  · rw [if_pos h1, if_neg h2]
    rw [if_neg h2] at hb
    exact he b h2 hb
  · rw [if_neg h1, if_pos h2]
    rw [if_neg h1] at ha
    rw [overlaps_comm]
    exact he a h1 ha
  · rw [if_neg h1, if_neg h2]
    rw [if_neg h1] at ha
    rw [if_neg h2] at hb
    exact hs a b hab ha hb

theorem Fdm.anyOverlap_false {d : Fdm} {base size : Nat} (h : d.anyOverlap base size = false) (g : Fin 128)
    (hg : d.dir[g].state ≠ .undefined) : overlaps base size d.dir[g].base d.dir[g].size = false := by
  simp only [Fdm.anyOverlap, Vector.any_eq_false] at h
  have := h g.val g.isLt
  simp only [Bool.and_eq_true, bne_iff_ne, not_and, Bool.not_eq_true] at this
  exact this hg

theorem actFaceDefine_region {face : Byte} {base size : Word} {s : State} (hs : RegionLaw s) :
    RegionLaw (actFaceDefine face base size s).1 := by
  unfold actFaceDefine
  split
  · exact hs
  · next h =>
    unfold Fdm.defineRefusal at h
    split at h
    · cases h
    · split at h
      · cases h
      · split at h
        · cases h
        · split at h
          · cases h
          · next ho =>
            exact hs.define _ _ (fun g _ hg => Fdm.anyOverlap_false (by simpa using ho) g hg) rfl

theorem State.retireNow_shrinks (f : Fin 128) (s : State) : DirShrinks s.fdm (s.retireNow f).fdm := by
  unfold State.retireNow
  dsimp only
  rw [(State.wake_touches _ _).fdm (by decide)]
  split <;> exact Fdm.undefineFace_shrinks _ f

theorem actFaceWithdraw_region {face : Byte} {s : State} (hs : RegionLaw s) : RegionLaw (actFaceWithdraw face s).1 := by
  unfold actFaceWithdraw
  split
  · exact hs
  · split
    · exact hs
    · dsimp only
      split
      · exact hs
      · next hd =>
        split
        · have hd' : s.fdm.dir[Fin.ofNat 128 face.toNat].state ≠ .undefined := by
            rw [not_not.1 hd]; decide
          exact hs.define (Fin.ofNat 128 face.toNat) { s.fdm.dir[Fin.ofNat 128 face.toNat] with state := .withdrawing }
            (fun g hg hgd => hs _ g (Ne.symm hg) hd' hgd) rfl
        · exact hs.shrinks (s.retireNow_shrinks _)

theorem State.discardOf_shrinks (c : Fin 4) (s : State) : DirShrinks s.fdm (s.discardOf c).fdm := by
  unfold State.discardOf
  split
  · split
    · exact s.endWithout_shrinks _ _
    · exact .of_eq rfl
  · exact .of_eq rfl

theorem actCancel_shrinks (target : Byte) (s : State) : DirShrinks s.fdm (actCancel target s).1.fdm := by
  unfold actCancel
  split
  · exact .of_eq rfl
  · dsimp only
    refine DirShrinks.trans (DirShrinks.trans (.of_eq ?_) (State.release_shrinks _ _)) (State.discardOf_shrinks _ _)
    dsimp only
    split <;> rfl

theorem actMount_dir (face : Byte) (s : State) : (actMount face s).1.fdm.dir = s.fdm.dir := by
  unfold actMount
  split
  · rfl
  · dsimp only
    split
    · rfl
    · split
      · rfl
      · split
        · rfl
        · split
          · rfl
          · split
            · rfl
            · split <;> rfl

theorem regionLaw_kept : Kept [.fdm] RegionLaw where
  reads bs s t h hb hs := hs.shrinks (.of_touches h (hb _ (by decide)))
  link := by decide
  act tag target o s hb hs := by
    cases o with
    | cancel => exact hs.shrinks (actCancel_shrinks target s)
    | faceDefine f b n => exact actFaceDefine_region hs
    | faceWithdraw f => exact actFaceWithdraw_region hs
    | mapLock => exact hs.shrinks (.of_eq rfl)
    | mount f => exact hs.shrinks (.of_eq (actMount_dir f s))
    | _ => simp [Order.blocks] at hb
  event i s t hi hb hs h := hs.shrinks (exec_shrinks hi h)
  reset record phase s hs := by
    intro f g _ hf _
    exact absurd (by simp [State.resetTo, Vector.getElem_replicate]) hf
  engine hb s t hs h := hs.shrinks (State.readOne_shrinks h)
  acks hb := absurd hb (by decide)

/-- Settles O56. -/
theorem stepKeepsRegionLaw : Obligations.StepKeepsRegionLaw := fun _ _ hs h => regionLaw_kept.step hs h

end Sys2Proof.Machine
end


section
/-! PROOF. The laws of each channel, kept by every step: its setting context (R6, R58, R60) and its copy buffer (R64). -/

namespace Sys2Proof.Machine

/-! ### Fields of the setting context -/

/-- R58: the numeric fields that copy cannot change and whose range is tested. -/
def SetField.limited : SetField → Bool
  | .measure | .leading | .indent | .wsMin | .wsOpt | .wsMax | .letterLimit | .elongLimit => true
  | _ => false

/-- The value of such a field. -/
def Context.number (c : Context) : SetField → Nat
  | .measure => c.measure
  | .leading => c.leading
  | .indent => c.indent
  | .wsMin => c.wsMin
  | .wsOpt => c.wsOpt
  | .wsMax => c.wsMax
  | .letterLimit => c.letterLimit
  | .elongLimit => c.elongLimit
  | _ => 0

/-- Two contexts hold the same values in those fields. -/
def Context.Alike (c d : Context) : Prop := ∀ f : SetField, f.limited = true → c.number f = d.number f

/-- Those fields lie in their ranges; the word spaces need not be ordered. -/
def Context.bounded (c : Context) : Prop :=
  ∀ (f : SetField) (lo hi : Nat), f.limited = true → f.range = some (lo, hi) → lo ≤ c.number f ∧ c.number f ≤ hi

theorem Context.inRange.bounded {c : Context} (h : c.inRange) : c.bounded := by
  intro f lo hi hf hr
  unfold Context.inRange at h
  cases f with
  | measure | leading | indent | wsMin | wsOpt | wsMax | letterLimit | elongLimit =>
    simp only [SetField.range, Option.some.injEq, Prod.mk.injEq] at hr
    simp only [Context.number]
    omega
  | _ => cases hf

theorem Context.Alike.inRange {c d : Context} (h : c.Alike d) (hd : d.inRange) : c.inRange := by
  unfold Context.inRange at *
  have h1 := h .measure rfl
  have h2 := h .leading rfl
  have h3 := h .indent rfl
  have h4 := h .wsMin rfl
  have h5 := h .wsOpt rfl
  have h6 := h .wsMax rfl
  have h7 := h .letterLimit rfl
  have h8 := h .elongLimit rfl
  simp only [Context.number] at h1 h2 h3 h4 h5 h6 h7 h8
  omega

theorem Context.number_write (c : Context) (f g : SetField) (v : Word) (hg : g.limited = true) :
    (c.write f v).number g = if f = g then v.toNat else c.number g := by
  cases g <;> simp [SetField.limited] at hg <;> cases f <;> rfl

/-! ### Lists of writes -/

theorem Context.writeAll_append (c : Context) (xs ys : List (SetField × Word)) :
    c.writeAll (xs ++ ys) = (c.writeAll xs).writeAll ys := List.foldl_append

theorem written_nil (g : SetField) : written [] g = none := rfl

theorem written_append (xs ys : List (SetField × Word)) (g : SetField) :
    written (xs ++ ys) g = (written ys g).or (written xs g) := by
  simp only [written, List.filter_append, List.getLast?_append]
  cases (ys.filter (fun p => p.1 == g)).getLast? <;> simp

theorem written_single (f g : SetField) (v : Word) : written [(f, v)] g = if f = g then some v else none := by
  by_cases h : f = g <;> simp [written, h]

/-- What a list of writes leaves in a field: the last value written, or what it held. -/
theorem Context.number_writeAll (c : Context) (ws : List (SetField × Word)) (g : SetField) (hg : g.limited = true) :
    (c.writeAll ws).number g = ((written ws g).map (·.toNat)).getD (c.number g) := by
  induction ws using List.reverseRecOn with
  | nil => rfl
  | append_singleton ws p ih =>
    have hp : (c.writeAll (ws ++ [p])) = (c.writeAll ws).write p.1 p.2 := by rw [Context.writeAll_append]; rfl
    rw [hp, Context.number_write _ _ _ _ hg, written_append, show [p] = [(p.1, p.2)] from rfl, written_single]
    split
    · rfl
    · simpa using ih

/-- The writes that a list of fields and their values make, each field at most once. -/
theorem written_filterMap {F : SetField → Option Word} {g : SetField} :
    ∀ {fs : List SetField}, fs.Nodup → g ∈ fs → written (fs.filterMap (fun f => (F f).map (fun v => (f, v)))) g = F g := by
  intro fs
  have absent : ∀ gs : List SetField, g ∉ gs → written (gs.filterMap (fun f => (F f).map (fun v => (f, v)))) g = none := by
    intro gs hg
    rw [written, List.filter_eq_nil_iff.2]
    · rfl
    · intro p hp
      obtain ⟨f, hf, e⟩ := List.mem_filterMap.1 hp
      obtain ⟨v, -, rfl⟩ := Option.map_eq_some_iff.1 e
      simpa using fun h : f = g => hg (h ▸ hf)
  induction fs with
  | nil => simp
  | cons f fs ih =>
    intro hn hg
    obtain ⟨hf, hn⟩ := List.nodup_cons.1 hn
    have split_head : (f :: fs).filterMap (fun f => (F f).map (fun v => (f, v))) =
        ((F f).map (fun v => (f, v))).toList ++ fs.filterMap (fun f => (F f).map (fun v => (f, v))) := by
      cases h : F f <;> simp [h]
    rw [split_head, written_append]
    by_cases e : f = g
    · subst e
      rw [absent fs hf, Option.none_or]
      cases F f with
      | none => rfl
      | some v => simp [written_single]
    · rw [ih hn ((List.mem_cons.1 hg).resolve_left (Ne.symm e))]
      cases h : F f with
      | none => simp [written_nil]
      | some v => simp [written_single, e]

theorem mem_allFields (f : SetField) : f ∈ allFields := by cases f <;> decide

/-- R60: pending fields gathered with later ones write what the two lists write one after the other. -/
theorem Context.writeAll_gather (c : Context) (old new : List (SetField × Word)) :
    (c.writeAll (gather old new)).Alike ((c.writeAll old).writeAll new) := by
  intro g hg
  have hw : written (gather old new) g = written (old ++ new) g := by
    rw [written_append]
    exact written_filterMap (F := fun f => (written new f).or (written old f)) (by decide) (mem_allFields g)
  rw [← Context.writeAll_append, c.number_writeAll _ g hg, c.number_writeAll _ g hg, hw]

/-! ### The fields of an order -/

theorem clampNat_bounds {lo hi v : Nat} (h : lo ≤ hi) : lo ≤ clampNat lo hi v ∧ clampNat lo hi v ≤ hi := by
  unfold clampNat
  split
  · omega
  · split <;> omega

/-- R6: a clamped value lies in its field's range. -/
theorem SetField.clamp_bounds {f : SetField} {lo hi : Nat} (hr : f.range = some (lo, hi)) (v : Word) :
    lo ≤ (f.clamp v).toNat ∧ (f.clamp v).toNat ≤ hi := by
  have hb : lo ≤ hi ∧ hi < 65536 := by cases f <;> simp [SetField.range] at hr <;> omega
  obtain ⟨h1, h2⟩ := clampNat_bounds (v := v.toNat) hb.1
  have e : (f.clamp v).toNat = clampNat lo hi v.toNat := by
    simp only [SetField.clamp, hr, BitVec.toNat_ofNat]
    omega
  omega

/-- A clamped value written keeps the fields in their ranges. -/
theorem Context.bounded.write {c : Context} (h : c.bounded) (f : SetField) (v : Word) : (c.write f (f.clamp v)).bounded := by
  intro g lo hi hg hr
  rw [Context.number_write _ _ _ _ hg]
  split
  · next e => exact SetField.clamp_bounds (e ▸ hr) v
  · exact h g lo hi hg hr

theorem Context.bounded.writeClamped {c : Context} (h : c.bounded) (named : List (SetField × Word)) :
    (c.writeAll (named.map (fun p => (p.1, p.1.clamp p.2)))).bounded := by
  induction named generalizing c with
  | nil => exact h
  | cons p ps ih => exact ih (h.write p.1 p.2)

/-- R6: the raised word spaces put a bounded context's word spaces in order. -/
theorem Context.bounded.raise {c : Context} (h : c.bounded) : (c.writeAll (raised c)).inRange := by
  have h1 := h .measure 768 55296 rfl rfl
  have h2 := h .leading 0 18432 rfl rfl
  have h3 := h .indent 0 55296 rfl rfl
  have h4 := h .wsMin 0 2000 rfl rfl
  have h5 := h .wsOpt 0 2000 rfl rfl
  have h6 := h .wsMax 0 2000 rfl rfl
  have h7 := h .letterLimit 0 200 rfl rfl
  have h8 := h .elongLimit 0 2000 rfl rfl
  simp only [Context.number] at h1 h2 h3 h4 h5 h6 h7 h8
  have opt : (BitVec.ofNat 16 (max c.wsOpt c.wsMin)).toNat = max c.wsOpt c.wsMin := by
    rw [BitVec.toNat_ofNat]; omega
  have mx : (BitVec.ofNat 16 (max c.wsMax (max c.wsOpt c.wsMin))).toNat = max c.wsMax (max c.wsOpt c.wsMin) := by
    rw [BitVec.toNat_ofNat]; omega
  unfold raised Context.inRange
  dsimp only
  split <;> split <;> simp only [Context.writeAll, List.foldl_append, List.foldl_cons, List.foldl_nil, Context.write, opt, mx] <;> omega

/-- R59, R60: a channel's writes leave what it will hold in range. -/
theorem Channel.writes_inRange {x : Channel} (h : (x.ctx.writeAll x.pendSet).inRange) (named : List (SetField × Word)) :
    ((x.ctx.writeAll x.pendSet).writeAll (x.writes named)).inRange := by
  unfold Channel.writes
  dsimp only
  rw [Context.writeAll_append]
  exact (h.bounded.writeClamped named).raise

/-! ### A property of every channel -/

/-- A property of a channel that every change the part makes to a channel keeps. -/
structure ChannelKept (P : Channel → Prop) : Prop where
  fresh : P {}
  like : ∀ {x y : Channel}, P x → y.ctx = x.ctx → y.pendSet = x.pendSet → y.state = x.state → y.buffer.length ≤ x.buffer.length → P y
  restated : ∀ {x : Channel} (st : ChannelState), x.state ≠ .composing ∨ st = .composing ∨ x.pendSet = [] → P x →
    P { x with state := st }
  appended : ∀ {x : Channel} (us : List BufUnit), us.length ≤ x.free → P x → P { x with buffer := x.buffer ++ us }
  pends : ∀ {x : Channel} (named : List (SetField × Word)), x.state = .composing → P x →
    P { x with pendSet := gather x.pendSet (x.writes named) }
  applied : ∀ {x : Channel} (named : List (SetField × Word)), x.state ≠ .composing → P x → P (x.apply (x.writes named))
  ended : ∀ {x y : Channel}, y.pendSet = [] → y.ctx.Alike (x.ctx.writeAll x.pendSet) → y.buffer.length ≤ x.buffer.length → P x → P y

/-- Every channel has the property. -/
def EveryChannel (P : Channel → Prop) (s : State) : Prop := ∀ c : Fin 4, P s.ch[c]

theorem Channel.applyPending_pendSet (x : Channel) : x.applyPending.pendSet = [] := by
  simp only [Channel.applyPending]
  cases x.pendCol <;> rfl

theorem Channel.applyPending_ctx (x : Channel) : x.applyPending.ctx = x.ctx.writeAll x.pendSet := by
  simp only [Channel.applyPending]
  cases x.pendCol <;> rfl

theorem Channel.applyPending_buffer (x : Channel) : x.applyPending.buffer = x.buffer := by
  simp only [Channel.applyPending]
  cases x.pendCol <;> rfl

theorem Channel.afterLine_buffer (x : Channel) (c : Composition) (e : LineEnd) (h : LineHeader) (carry : Option Carry) :
    (x.afterLine c e h carry).buffer = x.buffer.drop (e.unit + 1) := rfl

/-- What copy changes of a context leaves it alike, under whatever is written on it. -/
theorem Channel.afterLine_alike (x : Channel) (c : Composition) (e : LineEnd) (h : LineHeader) (carry : Option Carry)
    (ws : List (SetField × Word)) : ((x.afterLine c e h carry).ctx.writeAll ws).Alike (x.ctx.writeAll ws) := by
  intro g hg
  rw [Context.number_writeAll _ _ _ hg, Context.number_writeAll _ _ _ hg]
  congr 1

section
variable {P : Channel → Prop}

theorem EveryChannel.of_touches {s t : State} {bs : List Block} (hs : EveryChannel P s) (h : Touches bs s t) (hb : .ch ∉ bs) :
    EveryChannel P t := by
  unfold EveryChannel
  rw [h.ch hb]
  exact hs

theorem EveryChannel.of_ch {s t : State} (hs : EveryChannel P s) (h : t.ch = s.ch) : EveryChannel P t := by
  unfold EveryChannel
  rw [h]
  exact hs

theorem EveryChannel.setCh {s : State} (hs : EveryChannel P s) {c : Fin 4} {x : Channel} (hx : P x) : EveryChannel P (s.setCh c x) := by
  intro d
  by_cases h : d = c
  · rw [h, State.setCh_ch_same]
    exact hx
  · rw [State.setCh_ch_other c d x s h]
    exact hs d

variable (k : ChannelKept P)
include k

theorem EveryChannel.hold {s : State} (hs : EveryChannel P s) {c : Fin 4} (hc : s.ch[c].state ≠ .composing ∨ s.ch[c].pendSet = [])
    (why : HeldReason) : EveryChannel P (s.hold c why) := by
  have hx : P { s.ch[c] with state := .held why } := k.restated _ (by tauto) (hs c)
  unfold State.hold
  refine EveryChannel.of_touches ?_ (State.post_touches _ _) (by decide)
  exact hs.setCh (k.like hx rfl rfl rfl le_rfl)

theorem ChannelKept.retest {x : Channel} (hx : P x) (hc : x.state ≠ .composing ∨ x.pendSet = []) : P x.retest :=
  k.restated _ (by tauto) hx

theorem EveryChannel.wake {s : State} (hs : EveryChannel P s) (cs : List (Fin 4)) : EveryChannel P (s.wake cs) := by
  unfold State.wake
  induction cs generalizing s with
  | nil => exact hs
  | cons c cs ih =>
    rw [List.foldl_cons]
    refine ih ?_
    split
    · next h => exact hs.setCh (k.retest (hs c) (.inl (by rw [h]; decide)))
    · exact hs

theorem EveryChannel.reachHold {s : State} (hs : EveryChannel P s) (c : Fin 4) : EveryChannel P (s.reachHold c) := by
  unfold State.reachHold
  split
  · exact hs.setCh (k.like (hs c) rfl rfl rfl le_rfl)
  · next h => exact EveryChannel.hold k (s := { s with fdm := s.fdm.dropWaiter c }) hs (.inl (by rw [h]; decide)) _
  · next h _ => exact hs.hold k (.inl h) _

theorem EveryChannel.restate {s : State} (hs : EveryChannel P s) {c : Fin 4} (hc : s.ch[c].pendSet = []) :
    EveryChannel P (s.restate c) := by
  unfold State.restate
  split
  · exact hs.hold k (.inr hc) _
  · exact hs.setCh (k.retest (hs c) (.inr hc))

/-- The running context after a line, with the pending changes applied. -/
theorem ChannelKept.afterLine {x : Channel} (hx : P x) (c : Composition) (e : LineEnd) (h : LineHeader) (carry : Option Carry) :
    P (x.afterLine c e h carry).applyPending := by
  refine k.ended (Channel.applyPending_pendSet _) ?_ ?_ hx
  · rw [Channel.applyPending_ctx]
    exact x.afterLine_alike c e h carry _
  · rw [Channel.applyPending_buffer, Channel.afterLine_buffer, List.length_drop]
    omega

theorem EveryChannel.deliverLine {s : State} (hs : EveryChannel P s) (c : Composition) (e : LineEnd) :
    EveryChannel P (s.deliverLine c e) := by
  unfold State.deliverLine
  refine EveryChannel.restate k ?_ ?_
  · refine EveryChannel.setCh ?_ (k.afterLine (hs c.channel) c e _ _)
    exact hs
  · rw [State.setCh_ch_same, Channel.applyPending_pendSet]

theorem EveryChannel.endWithout {s : State} (hs : EveryChannel P s) (c : Composition) (e : Ending) :
    EveryChannel P (s.endWithout c e) := by
  have hx (y : Channel) (h1 : y.pendSet = s.ch[c.channel].applyPending.pendSet) (h2 : y.ctx = s.ch[c.channel].applyPending.ctx)
      (h3 : y.buffer = s.ch[c.channel].applyPending.buffer) : P y := by
    refine k.ended (h1.trans (Channel.applyPending_pendSet _)) ?_ ?_ (hs c.channel)
    · rw [h2, Channel.applyPending_ctx]
      exact fun _ _ => rfl
    · rw [h3, Channel.applyPending_buffer]
  unfold State.endWithout
  dsimp only
  split
  · refine EveryChannel.of_touches ?_ (State.postEither_touches _ _ _) (by decide)
    refine EveryChannel.setCh (fun d => hs d) (hx _ ?_ ?_ ?_) <;> rfl
  · refine EveryChannel.of_touches ?_ (State.postEither_touches _ _ _) (by decide)
    refine EveryChannel.setCh (fun d => hs d) (hx _ ?_ ?_ ?_) <;> rfl

theorem EveryChannel.serve {s : State} (hs : EveryChannel P s) (c : Fin 4) (slot : Fin 16) : EveryChannel P (s.serve c slot) := by
  have hx : P { s.ch[c] with state := .composing } := k.restated _ (by tauto) (hs c)
  unfold State.serve
  refine EveryChannel.of_touches ?_ (State.readNext_touches _) (by decide)
  exact EveryChannel.of_ch (hs.setCh hx) rfl

theorem EveryChannel.loadEnds {s : State} (hs : EveryChannel P s) (l : Load) (fail : Option MountCause) :
    EveryChannel P (s.loadEnds l fail) := by
  unfold State.loadEnds
  refine EveryChannel.wake k (EveryChannel.of_ch hs ?_) _
  rw [State.postAll_ch]
  rfl

theorem EveryChannel.mountPage {s : State} (hs : EveryChannel P s) (r : FetchReq) (data : Bytes) :
    EveryChannel P (s.mountPage r data) := by
  have ends (d : Fdm) (l : Load) (fail : Option MountCause) : EveryChannel P (State.loadEnds l fail { s with fdm := d }) :=
    EveryChannel.loadEnds k (s := { s with fdm := d }) hs l fail
  have pumps (d : Fdm) : EveryChannel P (State.pumpLoader { s with fdm := d }) :=
    EveryChannel.of_touches (s := { s with fdm := d }) hs (State.pumpLoader_touches _) (by decide)
  unfold State.mountPage
  split
  · exact hs
  · dsimp only
    split
    · split
      · exact ends _ _ _
      · split
        · exact ends _ _ _
        · exact pumps _
    · split
      · exact ends _ _ _
      · exact pumps _

theorem EveryChannel.deliver {s : State} (hs : EveryChannel P s) (r : FetchReq) (data : Bytes) : EveryChannel P (s.deliver r data) := by
  unfold State.deliver
  split
  · exact hs.mountPage k r data
  · exact hs.of_touches (s.masterArrived_touches r data) (by decide)
  · exact hs.of_touches (s.sequencerRead_touches data) (by decide)
  · exact hs.of_ch rfl

theorem EveryChannel.arbitrate {s : State} (hs : EveryChannel P s) (n : Nat) : EveryChannel P (s.arbitrate n) := by
  induction n generalizing s with
  | zero => exact hs
  | succ n ih =>
    unfold State.arbitrate
    split
    · exact hs
    · split
      · exact ih ((hs.of_touches (State.loseQueued_touches _ s) (by decide)).reachHold k _)
      · exact EveryChannel.of_touches (s := { s with ex := s.ex.passOver _ _ }) hs (State.take_touches _ _) (by decide)

theorem EveryChannel.retireNow {s : State} (hs : EveryChannel P s) (f : Fin 128) : EveryChannel P (s.retireNow f) := by
  unfold State.retireNow
  refine EveryChannel.wake k ?_ _
  exact hs

/-! ### Orders that change a channel -/

theorem ChannelKept.append {x : Channel} (hx : P x) (tag : Byte) {us : List CopyUnit} (h : us.length ≤ x.free) : P (x.append tag us) := by
  have hy : P { x with buffer := x.buffer ++ us.map (fun u => ⟨u, tag⟩) } := k.appended _ (by simpa using h) hx
  unfold Channel.append
  dsimp only
  split
  · next h => exact k.retest hy (.inl (by simp [h]))
  · exact hy

theorem EveryChannel.actCopy {s : State} (hs : EveryChannel P s) (tag target : Byte) (us : List RawUnit) :
    EveryChannel P (actCopy tag target us s).1 := by
  unfold Machine.actCopy
  split
  · exact hs
  · split
    · exact hs
    · dsimp only
      split
      · exact hs
      · split
        · exact hs
        · next h => exact hs.setCh (k.append (hs _) tag (Nat.le_of_not_lt h))

theorem EveryChannel.actChannelSet {s : State} (hs : EveryChannel P s) (target : Byte) (fs : List FieldEntry) :
    EveryChannel P (actChannelSet target fs s).1 := by
  unfold Machine.actChannelSet
  split
  · exact hs
  · split
    · exact hs
    · dsimp only
      split
      · next h => exact hs.setCh (k.pends _ h (hs _))
      · next h => exact hs.setCh (k.applied _ h (hs _))

theorem EveryChannel.actColumn {s : State} (hs : EveryChannel P s) (target : Byte) (top : BitVec 32) :
    EveryChannel P (actColumn target top s).1 := by
  unfold Machine.actColumn
  split
  · exact hs
  · next c _ =>
    dsimp only
    split <;> exact hs.setCh (k.like (hs c) rfl rfl rfl le_rfl)

theorem ChannelKept.cancelled {x : Channel} (hx : P x) : P x.cancelled := by
  have hy : P { x with state := if x.state = .composing then .composing else .idle } := by
    refine k.restated _ ?_ hx
    split <;> tauto
  exact k.like hy rfl rfl rfl (Nat.zero_le _)

theorem EveryChannel.actCancel {s : State} (hs : EveryChannel P s) (target : Byte) : EveryChannel P (actCancel target s).1 := by
  unfold Machine.actCancel
  split
  · exact hs
  · next c _ =>
    dsimp only
    have released (u v : State) (hu : EveryChannel P u) (hv : v = u.release (s.ex.linesUsed c)) : EveryChannel P (v.discardOf c) := by
      have hr : EveryChannel P v := hv ▸ hu.of_touches (u.release_touches _) (by decide)
      unfold State.discardOf
      split
      · split
        · exact hr.endWithout k _ _
        · exact hr
      · exact hr
    refine released _ _ ?_ rfl
    exact EveryChannel.of_ch (s := s.setCh c s.ch[c].cancelled) (hs.setCh (k.cancelled (hs c))) rfl

theorem EveryChannel.actRelease {s : State} (hs : EveryChannel P s) (target : Byte) : EveryChannel P (actRelease target s).1 := by
  unfold Machine.actRelease
  split
  · exact hs
  · split
    · next h => exact hs.setCh (k.retest (hs _) (.inl (by rw [h]; simp)))
    · exact hs

theorem EveryChannel.actFaceWithdraw {s : State} (hs : EveryChannel P s) (face : Byte) :
    EveryChannel P (actFaceWithdraw face s).1 := by
  unfold Machine.actFaceWithdraw
  split
  · exact hs
  · split
    · exact hs
    · dsimp only
      split
      · exact hs
      · split
        · exact hs.of_ch rfl
        · exact hs.retireNow k _

theorem EveryChannel.rewindColumns {s : State} (hs : EveryChannel P s) : EveryChannel P s.rewindColumns := by
  intro c
  have e : s.rewindColumns.ch[c] = { s.ch[c] with next := s.ch[c].top } := by simp [State.rewindColumns]
  rw [e]
  exact k.like (hs c) rfl rfl rfl le_rfl

theorem EveryChannel.actFilmCut {s : State} (hs : EveryChannel P s) : EveryChannel P (actFilmCut s).1 := by
  have hr := hs.rewindColumns k
  unfold Machine.actFilmCut
  split
  · exact hs
  · dsimp only
    split <;> exact EveryChannel.of_ch hr rfl

/-! ### Every step -/

theorem ChannelKept.kept : Kept [.ch] (EveryChannel P) where
  reads bs s t h hb hs := hs.of_touches h (hb _ (by decide))
  link := by decide
  act tag target o s hb hs := by
    cases o with
    | copy us => exact hs.actCopy k tag target us
    | channelSet fs => exact hs.actChannelSet k target fs
    | column top => exact hs.actColumn k target top
    | cancel => exact hs.actCancel k target
    | release => exact hs.actRelease k target
    | faceWithdraw f => exact hs.actFaceWithdraw k f
    | filmCut => exact hs.actFilmCut k
    | _ => simp [Order.blocks] at hb
  event i s t hi hb hs h := by
    have hread : EveryChannel P s.readOn := hs.of_touches s.readOn_touches (by decide)
    cases i with
    | arbiterChoice =>
      obtain rfl | ⟨c, slot, -, -, -, rfl⟩ := execArbiterChoice_cases h
      · exact hs
      · exact hs.serve k c slot
    | lineDelivery =>
      obtain rfl | ⟨c, -, rfl | ⟨e, -, rfl⟩⟩ := execLineDelivery_cases h
      · exact hread
      · exact hread.endWithout k c _
      · exact hread.deliverLine k c e
    | compositionAbandon =>
      obtain rfl | ⟨c, e, -, rfl⟩ := execCompositionAbandon_cases h
      · exact hread
      · exact hread.endWithout k c e
    | transferComplete =>
      obtain rfl | ⟨r, wanted, -, rfl⟩ := execTransferComplete_cases h
      · exact hs
      · have ht : EveryChannel P (s.transferred r) := hs
        refine EveryChannel.of_ch (EveryChannel.of_touches ?_ (State.idleReport_touches _ _) (by decide)) (State.settle_ch _)
        split
        · exact ht.deliver k r _
        · exact ht
    | filmArbiter =>
      obtain rfl | ⟨-, rfl⟩ := execFilmArbiter_cases h
      · exact hs
      · exact hs.arbitrate k _
    | _ => simp_all [blocksOf, isEvent, orderOf]
  reset record phase s hs := by
    intro c
    have e : (s.resetTo record phase).ch[c] = {} := by simp [State.resetTo]
    rw [e]
    exact k.fresh
  engine hb := absurd hb (by decide)
  acks hb := absurd hb (by decide)

end

/-! ### The setting law -/

/-- R58, R6, R60: what the setting law says of one channel. -/
def Channel.settingLaw (x : Channel) : Prop :=
  x.ctx.inRange ∧ (x.ctx.writeAll x.pendSet).inRange ∧ (x.state ≠ .composing → x.pendSet = [])

theorem settingLaw_channelKept : ChannelKept Channel.settingLaw where
  fresh := by simp [Channel.settingLaw, Context.inRange, Context.writeAll]
  like hx hc hp hst _ := by
    unfold Channel.settingLaw
    rw [hc, hp, hst]
    exact hx
  restated st h hx := by
    obtain ⟨h1, h2, h3⟩ := hx
    refine ⟨h1, h2, fun hst => ?_⟩
    obtain h | h | h := h
    · exact h3 h
    · exact absurd h hst
    · exact h
  appended us _ hx := hx
  pends {x} named hc hx := by
    obtain ⟨h1, h2, -⟩ := hx
    exact ⟨h1, (x.ctx.writeAll_gather _ _).inRange (Channel.writes_inRange h2 named), fun h => absurd hc h⟩
  applied {x} named hc hx := by
    obtain ⟨-, h2, h3⟩ := hx
    have hp := h3 hc
    have hw := Channel.writes_inRange h2 named
    rw [hp] at hw
    have ha : (x.apply (x.writes named)).pendSet = [] := hp
    refine ⟨hw, ?_, fun _ => ha⟩
    rw [ha]
    exact hw
  ended {x y} hp ha _ hx := by
    have hy := ha.inRange hx.2.1
    refine ⟨hy, ?_, fun _ => hp⟩
    rw [hp]
    exact hy

/-- Settles O55. -/
theorem stepKeepsSettingLaw : Obligations.StepKeepsSettingLaw := fun _ _ hs h => settingLaw_channelKept.kept.step hs h

/-! ### The copy law -/

theorem copyLaw_channelKept : ChannelKept (fun x => x.buffer.length ≤ 4096) where
  fresh := by decide
  like hx _ _ _ hb := hb.trans hx
  restated _ _ hx := hx
  appended {x} us h hx := by
    simp only [Channel.free, List.length_append] at *
    omega
  pends _ _ hx := hx
  applied _ _ hx := hx
  ended _ _ hb hx := hb.trans hx

/-- Settles O54. -/
theorem stepKeepsCopyLaw : Obligations.StepKeepsCopyLaw := fun _ _ hs h => copyLaw_channelKept.kept.step hs h

end Sys2Proof.Machine
end


section
/-! PROOF. What the part may do to the exposure controller, as a list of moves; and the laws that those moves keep: the slots (R138), the
bypass counts (R143), the deferral count (R144) and the film's reach (R140). -/

namespace Sys2Proof.Machine

/-! ### The moves of the exposure controller -/

/-- What may change in the exposure controller at one time, besides the delivery of a line. -/
inductive Ex.Moves : Ex → Ex → Prop
  /-- all but the queue and the values of R140, R144 and R151; the film may become unregistered, the deferral count may fall, the
  EXPOSING line may end or be marked, and a chosen line stays one only in the calibration ahead of it -/
  | keeps {e f : Ex} (queued : f.queued = e.queued) (film : f.film = e.film) (high : f.high = e.high) (reach : f.reach = e.reach)
      (deferLimit : f.deferLimit = e.deferLimit) (bypassLimit : f.bypassLimit = e.bypassLimit)
      (registered : f.registered = true → e.registered = true) (deferral : f.deferral ≤ e.deferral)
      (chosen : f.state = .calibrating → f.chosen = none ∨ e.state = .calibrating ∧ f.chosen = e.chosen)
      (exposing : ∀ y, f.exposing = some y → ∃ x, e.exposing = some x ∧ y.slot = x.slot) : Ex.Moves e f
  /-- R70 -/
  | cancels {e : Ex} (c : Fin 4) : Ex.Moves e (e.withoutLines c)
  /-- R142 -/
  | loses {e : Ex} (n : Fin 16) (state : e.state ≠ .calibrating) :
      Ex.Moves e { e with queued := e.queued.filter (fun q => q.slot != n) }
  /-- R143 -/
  | passes {e : Ex} {o : QueuedLine} {rest : List QueuedLine} (q : QueuedLine) (head : e.queued = o :: rest)
      (state : e.state ≠ .calibrating) (below : q.slot = o.slot ∨ o.bypass < e.bypassLimit) : Ex.Moves e (e.passOver o q)
  /-- R146 -/
  | exposes {e f : Ex} (q : QueuedLine) (mem : q ∈ e.queued)
      (near : e.high ≤ q.line.header.baseline + e.reach ∨ e.state = .calibrating ∧ e.chosenLine = some q)
      (state : f.state = .exposing) (queued : f.queued = e.queued.filter (fun y => y.slot != q.slot))
      (exposing : ∀ y, f.exposing = some y → y.slot = q.slot)
      (film : f.film = q.line.header.baseline) (high : f.high = max e.high q.line.header.baseline) (reach : f.reach = e.reach)
      (deferLimit : f.deferLimit = e.deferLimit) (bypassLimit : f.bypassLimit = e.bypassLimit)
      (registered : f.registered = e.registered) (deferral : f.deferral = e.deferral) : Ex.Moves e f
  /-- R144 -/
  | defers {e : Ex} (state : e.state ≠ .calibrating) (below : e.deferral < e.deferLimit) :
      Ex.Moves e { e with deferral := e.deferral + 1 }
  /-- R145 -/
  | chooses {e : Ex} (q : QueuedLine) (mem : q ∈ e.queued) (near : e.high ≤ q.line.header.baseline + e.reach) :
      Ex.Moves e { e with state := .calibrating, chosen := some { slot := q.slot } }
  /-- R149 -/
  | cuts {e : Ex} : Ex.Moves e e.cutDone
  /-- R151 -/
  | sets {e : Ex} (fields : List FieldEntry) (state : e.state ≠ .calibrating) : Ex.Moves e (e.set fields)

/-- From `s` to `t` the composition engine stays as it is, and the exposure controller makes moves. -/
def ExMoves (s t : State) : Prop := t.ce = s.ce ∧ Relation.ReflTransGen Ex.Moves s.ex t.ex

theorem ExMoves.refl (s : State) : ExMoves s s := ⟨rfl, .refl⟩

theorem ExMoves.trans {s t u : State} (h : ExMoves s t) (k : ExMoves t u) : ExMoves s u := ⟨k.1.trans h.1, h.2.trans k.2⟩

theorem ExMoves.of_eq {s t : State} (hc : t.ce = s.ce) (h : t.ex = s.ex) : ExMoves s t := ⟨hc, h ▸ .refl⟩

theorem ExMoves.of_touches {s t : State} {bs : List Block} (h : Touches bs s t) (hc : .ce ∉ bs) (hx : .ex ∉ bs) : ExMoves s t :=
  .of_eq (h.ce hc) (h.ex hx)

theorem ExMoves.single {s t : State} (hc : t.ce = s.ce) (h : Ex.Moves s.ex t.ex) : ExMoves s t := ⟨hc, .single h⟩

theorem ExMoves.ex {s : State} {e : Ex} (h : Ex.Moves s.ex e) : ExMoves s { s with ex := e } := .single rfl h

/-! ### Marks, records and faults -/

theorem Ex.Moves.markLine (e : Ex) (f : Marks → Marks) : Ex.Moves e (e.markLine f) := by
  refine .keeps rfl rfl rfl rfl rfl rfl id le_rfl (fun h => .inr ⟨h, rfl⟩) fun y hy => ?_
  obtain ⟨x, hx, rfl⟩ := Option.map_eq_some_iff.1 hy
  exact ⟨x, hx, rfl⟩

/-- R163: a master that comes leaves the EX as it is, or marks its line. -/
theorem State.masterArrived_ex (r : FetchReq) (data : Bytes) (s : State) :
    (s.masterArrived r data).ex = s.ex ∨ ∃ m, (s.masterArrived r data).ex = s.ex.markLine m := by
  have sent (u : State) : u.send.ex = u.ex := u.send_touches.ex (by decide)
  have pumped (u : State) : u.pumpSa.ex = u.ex := u.pumpSa_touches.ex (by decide)
  unfold State.masterArrived
  dsimp only
  split
  · split
    · exact .inl (sent _)
    · split
      · exact .inr ⟨fun m => { m with damaged := true }, rfl⟩
      · split
        · exact .inr ⟨fun m => { m with damaged := true }, sent _⟩
        · exact .inr ⟨fun m => { m with damaged := true }, pumped _⟩
  · exact .inl rfl

theorem State.masterArrived_moves (r : FetchReq) (data : Bytes) (s : State) : ExMoves s (s.masterArrived r data) := by
  refine ⟨(s.masterArrived_touches r data).ce (by decide), ?_⟩
  obtain e | ⟨m, e⟩ := s.masterArrived_ex r data <;> rw [e]
  exact .single (.markLine _ _)

theorem State.startTimer_moves (s : State) : ExMoves s s.startTimer :=
  .single rfl (.keeps rfl rfl rfl rfl rfl rfl id le_rfl (fun h => .inr ⟨h, rfl⟩) fun y hy => ⟨y, hy, rfl⟩)

theorem State.recordSent_moves (r : OutRecord) (s : State) : ExMoves s (s.recordSent r) := by
  have next : ExMoves s (State.pumpSa { s with sa := s.sa.sentRecord }).send :=
    .of_touches (bs := [.fs, .sa])
      (Touches.trans (Touches.trans (by constructor <;> simp) (State.pumpSa_touches _)) (State.send_touches _)) (by decide) (by decide)
  cases r with
  | lineBegin => exact .of_touches s.send_touches (by decide) (by decide)
  | strike => exact next
  | extend => exact next
  | lineEnd => exact (ExMoves.of_eq (t := { s with sa := s.sa.toIdle }) rfl rfl).trans (State.startTimer_moves _)
  | calibrate => exact s.startTimer_moves
  | cut => exact s.startTimer_moves

theorem State.deliver_moves (r : FetchReq) (data : Bytes) (s : State) : ExMoves s (s.deliver r data) := by
  unfold State.deliver
  split
  · exact .of_touches (s.mountPage_touches r data) (by decide) (by decide)
  · exact s.masterArrived_moves r data
  · exact .of_touches (s.sequencerRead_touches data) (by decide) (by decide)
  · exact .of_eq rfl rfl

/-! ### The film arbiter -/

theorem State.assemble_moves (x : ExposingLine) (s : State) :
    (s.assemble x).ex = s.ex ∨ ∃ m, (s.assemble x).ex = s.ex.markLine m := by
  unfold State.assemble
  rw [(State.pumpSa_touches _).ex (by decide)]
  dsimp only
  split
  · exact .inr ⟨_, rfl⟩
  · exact .inl rfl

theorem State.expose_moves {q : QueuedLine} {s : State} (mem : q ∈ s.ex.queued)
    (near : s.ex.high ≤ q.line.header.baseline + s.ex.reach ∨ s.ex.state = .calibrating ∧ s.ex.chosenLine = some q) :
    ExMoves s (s.expose q) := by
  refine .single ((s.expose_touches q).ce (by decide)) ?_
  unfold State.expose
  dsimp only
  obtain e | ⟨m, e⟩ := State.assemble_moves { slot := q.slot, line := q.line, travel := (q.line.header.baseline : Int) - s.ex.film, bypass := q.bypass }
    { s with ex := { s.ex with
        state := .exposing, chosen := none, queued := s.ex.queued.filter (fun y => y.slot != q.slot)
        exposing := some { slot := q.slot, line := q.line, travel := (q.line.header.baseline : Int) - s.ex.film, bypass := q.bypass }
        film := q.line.header.baseline, high := max s.ex.high q.line.header.baseline } } <;> rw [e]
  · exact .exposes q mem near rfl rfl (fun y hy => by cases hy; rfl) rfl rfl rfl rfl rfl rfl rfl
  · exact .exposes q mem near rfl rfl (fun y hy => by cases hy; rfl) rfl rfl rfl rfl rfl rfl rfl

theorem State.take_moves {q : QueuedLine} {s : State} (mem : q ∈ s.ex.queued) (near : s.ex.high ≤ q.line.header.baseline + s.ex.reach)
    (state : s.ex.state ≠ .calibrating) : ExMoves s (s.take q) := by
  unfold State.take
  split
  · exact State.expose_moves mem (.inl near)
  · split
    · next hd =>
      have below : s.ex.deferral < s.ex.deferLimit := by
        simp only [Ex.defers, Bool.and_eq_true, decide_eq_true_eq] at hd
        exact hd.2
      exact (ExMoves.ex (.defers state below)).trans (State.expose_moves (s := { s with ex := _ }) mem (.inl near))
    · exact .single rfl (.chooses q mem near)

theorem State.loseQueued_moves (qs : List QueuedLine) {s : State} (state : s.ex.state ≠ .calibrating) :
    ExMoves s (s.loseQueued qs) ∧ (s.loseQueued qs).ex.state = s.ex.state := by
  induction qs generalizing s with
  | nil => exact ⟨.refl s, rfl⟩
  | cons q qs ih =>
    have hl := s.loseLine_touches q.line .reach
    have he := hl.ex (by decide)
    have hc := hl.ce (by decide)
    unfold State.loseQueued
    dsimp only
    set t : State := { s.loseLine q.line .reach with
      ex := { (s.loseLine q.line .reach).ex with queued := (s.loseLine q.line .reach).ex.queued.filter (fun x => x.slot != q.slot) } }
      with ht
    have hst : t.ex.state = s.ex.state := by rw [ht, he]
    have move : ExMoves s t := by
      refine .single hc ?_
      rw [ht, he]
      exact .loses q.slot state
    obtain ⟨h1, h2⟩ := ih (s := t) (hst ▸ state)
    exact ⟨move.trans h1, h2.trans hst⟩

theorem State.loseChannel_moves (c : Fin 4) {s : State} (state : s.ex.state ≠ .calibrating) :
    ExMoves s (s.loseChannel c) ∧ (s.loseChannel c).ex.state = s.ex.state := by
  obtain ⟨h1, h2⟩ := State.loseQueued_moves (s.ex.queued.filter (fun q => q.ofChannel c)) state
  have hr := State.reachHold_touches c (s.loseQueued (s.ex.queued.filter (fun q => q.ofChannel c)))
  exact ⟨h1.trans (.of_touches hr (by decide) (by decide)), (congrArg Ex.state (hr.ex (by decide))).trans h2⟩

/-- The line of least travel is one of the list. -/
theorem Ex.nearest_mem {e : Ex} : ∀ {qs : List QueuedLine} {q : QueuedLine}, e.nearest qs = some q → q ∈ qs := by
  intro qs
  induction qs with
  | nil => intro q h; cases h
  | cons a qs ih =>
    intro q h
    unfold Ex.nearest at h
    split at h
    · next r hr =>
      split at h <;> cases h
      · exact List.mem_cons_of_mem _ (ih hr)
      · exact List.mem_cons_self
    · cases h
      exact List.mem_cons_self

/-- R143: the line chosen is QUEUED and reachable, and is O unless O's count is below the limit. -/
theorem Ex.choice_spec {e : Ex} {o : QueuedLine} (ho : o ∈ e.queued) (hr : e.outOfReach o.line.header.baseline = false) :
    e.choice o ∈ e.queued ∧ e.outOfReach (e.choice o).line.header.baseline = false ∧ (e.choice o = o ∨ o.bypass < e.bypassLimit) := by
  unfold Ex.choice
  split
  · exact ⟨ho, hr, .inl rfl⟩
  · next hb =>
    cases hn : e.nearest (e.candidates.filter (fun q => !e.outOfReach q.line.header.baseline)) with
    | none => exact ⟨ho, hr, .inl rfl⟩
    | some q =>
      obtain ⟨hq, hqr⟩ := List.mem_filter.1 (Ex.nearest_mem hn)
      exact ⟨(List.mem_filter.1 hq).1, by simpa using hqr, .inr (by omega)⟩

theorem Ex.near_of_reach {e : Ex} {b : Nat} (h : e.outOfReach b = false) : e.high ≤ b + e.reach := by
  simp only [Ex.outOfReach, decide_eq_false_iff_not] at h
  omega

/-- A line passed over for another keeps the other in the queue as it was. -/
theorem Ex.mem_passOver {e : Ex} {o q : QueuedLine} (hq : q ∈ e.queued) : q ∈ (e.passOver o q).queued := by
  unfold Ex.passOver
  split
  · exact hq
  · next hs => exact List.mem_map.2 ⟨q, hq, if_neg hs⟩

theorem Ex.passOver_state (e : Ex) (o q : QueuedLine) : (e.passOver o q).state = e.state := by
  unfold Ex.passOver
  split <;> rfl

theorem Ex.passOver_high (e : Ex) (o q : QueuedLine) : (e.passOver o q).high = e.high := by
  unfold Ex.passOver
  split <;> rfl

theorem Ex.passOver_reach (e : Ex) (o q : QueuedLine) : (e.passOver o q).reach = e.reach := by
  unfold Ex.passOver
  split <;> rfl

theorem State.arbitrate_moves (n : Nat) {s : State} (state : s.ex.state ≠ .calibrating) : ExMoves s (s.arbitrate n) := by
  induction n generalizing s with
  | zero => exact .refl s
  | succ n ih =>
    unfold State.arbitrate
    split
    · exact .refl s
    · next o rest hq =>
      split
      · obtain ⟨h1, h2⟩ := State.loseChannel_moves o.line.header.channel state
        exact h1.trans (ih (h2 ▸ state))
      · next hr =>
        obtain ⟨hmem, hreach, hbelow⟩ := Ex.choice_spec (e := s.ex) (o := o) (by simp [hq]) (by simpa using hr)
        have hpass : ExMoves s { s with ex := s.ex.passOver o (s.ex.choice o) } :=
          .single rfl (.passes _ hq state (hbelow.imp_left (congrArg QueuedLine.slot)))
        refine hpass.trans (State.take_moves (Ex.mem_passOver hmem) ?_ ?_)
        · rw [Ex.passOver_high, Ex.passOver_reach]
          exact Ex.near_of_reach hreach
        · rw [Ex.passOver_state]
          exact state

/-! ### DONE and faults -/

theorem Ex.rest_moves {e : Ex} : Ex.Moves e e.rest := by
  unfold Ex.rest
  split <;> exact .keeps rfl rfl rfl rfl rfl rfl id le_rfl (fun h => by cases h) fun y hy => ⟨y, hy, rfl⟩

theorem State.exposed_moves (x : ExposingLine) (s : State) : ExMoves s (s.exposed x) := by
  have hr := State.release_touches x.line.used
    (State.post (.lineExposed x.line.header x.travel s.ex.pageCount) { s with ex := { s.ex with timer := none } })
  refine ⟨(s.exposed_touches x).ce (by decide), ?_⟩
  unfold State.exposed
  dsimp only
  rw [hr.ex (by decide)]
  refine .tail (.single ?_) Ex.rest_moves
  exact .keeps rfl rfl rfl rfl rfl rfl id le_rfl (fun h => .inr ⟨h, rfl⟩) fun y hy => by cases hy

theorem Ex.chosenLine_mem {e : Ex} {q : QueuedLine} (h : e.chosenLine = some q) :
    q ∈ e.queued ∧ e.chosen = some ⟨q.slot, false⟩ := by
  unfold Ex.chosenLine at h
  split at h
  · next x hx =>
    split at h
    · cases h
    · next hrem =>
      have hslot : q.slot = x.slot := by simpa using List.find?_some h
      refine ⟨List.mem_of_find?_eq_some h, hx.trans ?_⟩
      rw [hslot]
      cases x
      simpa using hrem
  · cases h

theorem State.calibrated_moves {s : State} (state : s.ex.state = .calibrating) : ExMoves s s.calibrated := by
  have cleared : Ex.Moves s.ex { s.ex with timer := none, counter := 0, deferral := 0 } :=
    .keeps rfl rfl rfl rfl rfl rfl id (Nat.zero_le _) (fun h => .inr ⟨h, rfl⟩) fun y hy => ⟨y, hy, rfl⟩
  have settled (st : ExState) (p h : Bool) (ch : Option ChosenLine) (hst : st ≠ .calibrating) :
      Ex.Moves s.ex { s.ex with timer := none, counter := 0, deferral := 0, state := st, cutPending := p, holdReq := h, chosen := ch } :=
    .keeps rfl rfl rfl rfl rfl rfl id (Nat.zero_le _) (fun h => absurd h hst) fun y hy => ⟨y, hy, rfl⟩
  unfold State.calibrated
  dsimp only
  split
  · exact .single rfl (settled _ _ _ _ (by decide))
  · split
    · exact .single rfl (settled _ _ _ _ (by decide))
    · split
      · next q hq =>
        exact (ExMoves.ex cleared).trans
          (State.expose_moves (s := { s with ex := { s.ex with timer := none, counter := 0, deferral := 0 } })
            (Ex.chosenLine_mem hq).1 (.inr ⟨state, hq⟩))
      · exact .single rfl (settled _ _ _ _ (by decide))

theorem State.takeDone_moves (s : State) : ExMoves s s.takeDone := by
  unfold State.takeDone
  split
  · exact .refl s
  · split
    · exact s.exposed_moves _
    · next h => exact State.calibrated_moves h
    · exact .single rfl .cuts
    · exact .refl s

/-- R153, R154: what a fault leaves of the EX. -/
theorem State.enterFaulted_ex (cause : FaultCause) (why : LossReason) (s : State) :
    (s.enterFaulted cause why).ex =
      { s.ex.faulted cause with exposing := if s.ex.state = .exposing then none else s.ex.exposing } := by
  have hp := (s.stopPort_touches).ex (by decide)
  have hl : (s.stopPort.loseExposing why).ex = { s.ex with exposing := if s.ex.state = .exposing then none else s.ex.exposing } := by
    unfold State.loseExposing
    rw [hp]
    split
    · next h1 h2 =>
      dsimp only
      rw [if_pos h1, (State.loseLine_touches _ _ _).ex (by decide), hp]
    · next hx =>
      rw [hp]
      split
      · next hst =>
        cases hex : s.ex.exposing with
        | none => rw [← hex]
        | some x => exact absurd hex (hx x hst)
      · rfl
  unfold State.enterFaulted
  dsimp only
  rw [(State.fetchesIdle_touches _).ex (by decide), State.post_ex, hl]
  rfl

theorem State.enterFaulted_moves (cause : FaultCause) (why : LossReason) (s : State) : ExMoves s (s.enterFaulted cause why) := by
  refine .single ((s.enterFaulted_touches cause why).ce (by decide)) ?_
  rw [State.enterFaulted_ex]
  refine .keeps rfl rfl rfl rfl rfl rfl (fun h => ?_) le_rfl (fun h => by cases h) fun y hy => ?_
  · simp only [Ex.faulted, Bool.and_eq_true] at h
    exact h.1.1
  · split at hy
    · cases hy
    · exact ⟨y, hy, rfl⟩

theorem State.takeFault_moves (cause : FaultCause) (s : State) : ExMoves s (s.takeFault cause) := by
  unfold State.takeFault
  split
  · refine .single rfl (.keeps rfl rfl rfl rfl rfl rfl (fun h => ?_) le_rfl (fun h => .inr ⟨h, rfl⟩) fun y hy => ⟨y, hy, rfl⟩)
    simp only [Bool.and_eq_true] at h
    exact h.1
  · exact s.enterFaulted_moves cause .fault

theorem State.returnByte_moves (b : Byte) (s : State) : ExMoves s (s.returnByte b) :=
  State.returnByte_keeps (P := ExMoves s) (.refl s) (fun _ _ h => h.trans (.of_eq rfl rfl))
    (fun u c h => h.trans (u.takeFault_moves c)) (fun u h => h.trans u.takeDone_moves) b

/-! ### Orders -/

theorem actFilmCut_moves (s : State) : ExMoves s (actFilmCut s).1 := by
  unfold actFilmCut
  split
  · exact .refl s
  · next hc =>
    have none_exposing : s.ex.exposing = none := by
      simp only [State.canCut, Bool.not_eq_false, Bool.and_eq_true, Option.isNone_iff_eq_none] at hc
      exact hc.1.1.2
    dsimp only
    split
    · exact .single rfl (.keeps rfl rfl rfl rfl rfl rfl id le_rfl (fun _ => .inl rfl) fun y hy => ⟨y, hy, rfl⟩)
    · exact .single rfl (.keeps rfl rfl rfl rfl rfl rfl id le_rfl (fun h => by cases h) fun y hy => ⟨y, hy, rfl⟩)

theorem actExposeSet_moves (fs : List FieldEntry) (s : State) : ExMoves s (actExposeSet fs s).1 := by
  unfold actExposeSet
  split
  · exact .refl s
  · split
    · exact .refl s
    · next ho =>
      refine .single rfl (.sets fs fun h => ?_)
      simp [Ex.operating, h] at ho

theorem actExposeHold_moves (s : State) : ExMoves s (actExposeHold s).1 := by
  unfold actExposeHold
  split
  · exact .single rfl (.keeps rfl rfl rfl rfl rfl rfl id le_rfl (fun h => by cases h) fun y hy => ⟨y, hy, rfl⟩)
  · exact .single rfl (.keeps rfl rfl rfl rfl rfl rfl id le_rfl (fun h => by cases h) fun y hy => ⟨y, hy, rfl⟩)
  · exact .refl s
  · exact .single rfl (.keeps rfl rfl rfl rfl rfl rfl id le_rfl (fun h => .inr ⟨h, rfl⟩) fun y hy => ⟨y, hy, rfl⟩)

theorem Ex.resumed_ne_calibrating (e : Ex) : e.resumed ≠ .calibrating := by
  unfold Ex.resumed
  split <;> decide

theorem actExposeResume_moves (s : State) : ExMoves s (actExposeResume s).1 := by
  unfold actExposeResume
  dsimp only
  split
  · exact .single rfl (.keeps rfl rfl rfl rfl rfl rfl id le_rfl (fun h => absurd h s.ex.resumed_ne_calibrating) fun y hy => ⟨y, hy, rfl⟩)
  · refine .single rfl (.keeps rfl rfl rfl rfl rfl rfl id le_rfl (fun h => ?_) fun y hy => ⟨y, hy, rfl⟩)
    dsimp only at h
    split at h
    · cases h
    · exact absurd h s.ex.resumed_ne_calibrating
  · exact .refl s
  · exact .refl s
  · split
    · exact .single rfl (.keeps rfl rfl rfl rfl rfl rfl id le_rfl (fun h => .inr ⟨h, rfl⟩) fun y hy => ⟨y, hy, rfl⟩)
    · exact .refl s

end Sys2Proof.Machine
end


section
/-! PROOF. Every step keeps the laws of the exposure queue, the film and the outbound lane. -/

namespace Sys2Proof.Machine

/-! ### Laws of the engine's slot and the exposure controller -/

/-- The state with a line delivered into the queue, its composition at an end (R98). -/
def State.queues (slot : Fin 16) (l : Line) (s : State) : State :=
  { s with ce := { s.ce with comp := none }, ex := { s.ex with queued := s.ex.queued ++ [⟨slot, l, 0⟩] } }

/-- A law that reads the composition engine and the exposure controller, and that all that may change either of them keeps. -/
structure ExKept (P : State → Prop) : Prop where
  reads : Reads [.ce, .ex] P
  moves : ∀ {s : State} {e : Ex}, P s → Ex.Moves s.ex e → P { s with ex := e }
  delivers : ∀ {s : State} {c : Composition}, s.ce.comp = some c → P s → ∀ l : Line, P (s.queues c.slot l)
  ends : ∀ {s : State}, P s → P { s with ce := { s.ce with comp := none } }
  begins : ∀ {s : State}, s.ce.comp = none → P s → ∀ (last : Fin 4) (c : Composition), c.slot ∉ s.slotsTaken →
    P { s with ce := { lastServed := last, comp := some c } }
  goesOn : ∀ {s : State} {c d : Composition}, s.ce.comp = some c → d.slot = c.slot → P s →
    P { s with ce := { s.ce with comp := some d } }
  fresh : ∀ {s : State}, s.ce = {} → s.ex = {} → P s

theorem State.freeSlot_free {s : State} {n : Fin 16} (h : s.freeSlot = some n) : n ∉ s.slotsTaken := by
  simpa using List.find?_some h

section
variable {P : State → Prop} (k : ExKept P)
include k

/-- The law reads the two blocks alone. -/
theorem ExKept.same {s t : State} (hs : P s) (hc : t.ce = s.ce) (hx : t.ex = s.ex) : P t :=
  k.reads [.olu, .fdm, .ch, .fs, .sq, .sa, .store, .time] s t
    (by constructor <;> simp [hc, hx]) (by decide) hs

theorem ExKept.touches {s t : State} (hs : P s) {bs : List Block} (h : Touches bs s t) (hc : .ce ∉ bs) (hx : .ex ∉ bs) : P t :=
  k.same hs (h.ce hc) (h.ex hx)

theorem ExKept.along {s t : State} (hs : P s) (h : ExMoves s t) : P t := by
  obtain ⟨hc, hm⟩ := h
  have reached : ∀ e, Relation.ReflTransGen Ex.Moves s.ex e → P { s with ex := e } := by
    intro e he
    induction he with
    | refl => exact hs
    | @tail e f _ hm ih => exact k.same (k.moves (s := { s with ex := e }) ih hm) rfl rfl
  exact k.same (reached _ hm) hc rfl

theorem ExKept.readOne {s t : State} (hs : P s) (h : s.readOne = some t) : P t := by
  obtain ⟨c, hc, -, -, ⟨x, subst, -, -, rfl⟩ | ⟨b, r, -, -, -, ⟨-, rfl⟩ | ⟨-, -, rfl⟩⟩⟩ := s.readOne_cases h
  · exact k.goesOn hc rfl hs
  · exact k.goesOn hc rfl hs
  · by_cases hp : r.work.drawn.pos ∈ (c.take r).used
    · rw [State.draw_held hp]
      exact k.goesOn hc rfl hs
    · rw [State.draw_first hp]
      exact k.same (k.goesOn (d := { c.take r with used := (c.take r).used ++ [r.work.drawn.pos] }) hc rfl hs) rfl rfl

theorem ExKept.deliverLine {s : State} {c : Composition} (hc : s.ce.comp = some c) (hs : P s) (e : LineEnd) : P (s.deliverLine c e) := by
  unfold State.deliverLine
  refine k.touches ?_ (State.restate_touches _ _) (by decide) (by decide)
  exact k.same (k.delivers hc hs (buildLine (c.setting s.metrics) c e s.ch[c.channel].next s.ch[c.channel].lineCounter
    s.ch[c.channel].consumed)) rfl rfl

theorem ExKept.endWithout {s : State} (hs : P s) (c : Composition) (e : Ending) : P (s.endWithout c e) := by
  unfold State.endWithout
  dsimp only
  split
  · refine k.touches ?_ (State.postEither_touches _ _ _) (by decide) (by decide)
    exact k.same (k.ends hs) rfl rfl
  · refine k.touches ?_ (State.postEither_touches _ _ _) (by decide) (by decide)
    exact k.same (k.ends hs) rfl rfl

theorem ExKept.serve {s : State} (hc : s.ce.comp = none) (hs : P s) (c : Fin 4) {slot : Fin 16} (hn : slot ∉ s.slotsTaken) :
    P (s.serve c slot) := by
  unfold State.serve
  refine State.readNext_keeps (fun _ _ ha h => k.readOne ha h) ?_
  exact k.same (k.begins hc hs c (s.ch[c].begin c slot) hn) rfl rfl

theorem ExKept.actCancel {s : State} (hs : P s) (target : Byte) : P (actCancel target s).1 := by
  unfold Machine.actCancel
  split
  · exact hs
  · next c _ =>
    dsimp only
    have ended (u : State) (hu : P u) : P (u.discardOf c) := by
      unfold State.discardOf
      split
      · split
        · exact k.endWithout hu _ _
        · exact hu
      · exact hu
    refine ended _ (k.touches ?_ (State.release_touches _ _) (by decide) (by decide))
    exact k.same (k.moves hs (.cancels c)) rfl rfl

/-- Every step keeps such a law. -/
theorem ExKept.kept : Kept [.ce, .ex] P where
  reads := k.reads
  link := by decide
  act tag target o s hb hs := by
    cases o with
    | cancel => exact k.actCancel hs target
    | filmCut => exact k.along hs (actFilmCut_moves s)
    | exposeSet fs => exact k.along hs (actExposeSet_moves fs s)
    | exposeHold => exact k.along hs (actExposeHold_moves s)
    | exposeResume => exact k.along hs (actExposeResume_moves s)
    | _ => simp [Order.blocks] at hb
  event i s t hi hb hs h := by
    have settled {u : State} (hu : P u) : P u.settle := k.touches hu u.settle_touches (by decide) (by decide)
    have hread : P s.readOn := State.readOn_keeps (fun _ _ ha h => k.readOne ha h) hs
    cases i with
    | arbiterChoice =>
      obtain rfl | ⟨c, slot, hc, -, hn, rfl⟩ := execArbiterChoice_cases h
      · exact settled hs
      · exact settled (k.serve hc hs c (State.freeSlot_free hn))
    | lineDelivery =>
      obtain rfl | ⟨c, hc, rfl | ⟨e, -, rfl⟩⟩ := execLineDelivery_cases h
      · exact settled hread
      · exact settled (k.endWithout hread c _)
      · exact settled (k.deliverLine hc hread e)
    | compositionAbandon =>
      obtain rfl | ⟨c, e, -, rfl⟩ := execCompositionAbandon_cases h
      · exact settled hread
      · exact settled (k.endWithout hread c e)
    | transferComplete =>
      obtain rfl | ⟨r, wanted, -, rfl⟩ := execTransferComplete_cases h
      · exact settled hs
      · have ht : P (s.transferred r) := k.same hs rfl rfl
        refine settled (k.touches ?_ (State.idleReport_touches _ _) (by decide) (by decide))
        split
        · exact k.along ht (State.deliver_moves r _ _)
        · exact ht
    | filmArbiter =>
      obtain rfl | ⟨hi, rfl⟩ := execFilmArbiter_cases h
      · exact settled hs
      · exact settled (k.along hs (State.arbitrate_moves _ (by rw [hi]; decide)))
    | recordSent =>
      obtain rfl | ⟨r, rest, -, rfl⟩ := execRecordSent_cases h
      · exact settled hs
      · exact settled (k.along (k.same hs rfl rfl) (State.recordSent_moves r _))
    | unitDone =>
      cases h
      exact settled (k.along hs (s.returnByte_moves _))
    | unitFault b =>
      cases h
      exact settled (k.along (k.along hs (s.returnByte_moves _)) (State.returnByte_moves _ _))
    | exposureTimeout =>
      obtain rfl | ⟨d, -, rfl⟩ := execExposureTimeout_cases h
      · exact settled hs
      · exact settled (k.along (k.same hs rfl rfl) (State.enterFaulted_moves _ _ _))
    | unknownReturnByte b =>
      cases h
      exact settled (k.along hs (s.returnByte_moves _))
    | _ => simp_all [blocksOf, isEvent, orderOf]
  reset record phase s _ := k.fresh rfl rfl
  engine _ s t hs h := k.readOne hs h
  acks hb := absurd hb (by decide)

end

/-! ### The slots (R138) -/

/-- The slots of the QUEUED lines and of the EXPOSING line. -/
def Ex.slots (e : Ex) : List (Fin 16) := e.queued.map (·.slot) ++ (e.exposing.map (·.slot)).toList

theorem State.slotsTaken_eq (s : State) : s.slotsTaken = (s.ce.comp.map (·.slot)).toList ++ s.ex.slots := by
  unfold State.slotsTaken Ex.slots
  rw [List.append_assoc]
  cases s.ce.comp <;> cases s.ex.exposing <;> rfl

theorem slotLaw_iff (s : State) : SlotLaw s ↔ s.ex.slots.Nodup ∧ ∀ c, s.ce.comp = some c → c.slot ∉ s.ex.slots := by
  unfold SlotLaw
  rw [s.slotsTaken_eq]
  cases s.ce.comp with
  | none => simp
  | some c => simp [and_comm]

theorem Ex.slots_passOver (e : Ex) (o q : QueuedLine) : (e.passOver o q).slots = e.slots := by
  unfold Ex.passOver
  split
  · rfl
  · have h : (e.queued.map (fun x => if x.slot = o.slot then { x with bypass := x.bypass + 1 } else x)).map (·.slot) =
        e.queued.map (·.slot) := by
      rw [List.map_map]
      refine List.map_congr_left fun x _ => ?_
      simp only [Function.comp_apply]
      split <;> rfl
    simp only [Ex.slots, h]

/-- A move frees slots, and takes none. -/
theorem Ex.Moves.slots {e f : Ex} (h : Ex.Moves e f) (hn : e.slots.Nodup) : f.slots.Nodup ∧ f.slots ⊆ e.slots := by
  have sublist {g : Ex} (hg : g.slots.Sublist e.slots) : g.slots.Nodup ∧ g.slots ⊆ e.slots := ⟨hn.sublist hg, hg.subset⟩
  cases h with
  | keeps queued film high reach deferLimit bypassLimit registered deferral chosen exposing =>
    refine sublist ?_
    unfold Ex.slots
    rw [queued]
    refine List.Sublist.append_left ?_ _
    cases hf : f.exposing with
    | none => simp
    | some y =>
      obtain ⟨x, hx, hs⟩ := exposing y hf
      simp [hx, hs]
  | cancels c => exact sublist ((List.filter_sublist.map _).append_right _)
  | loses n state => exact sublist ((List.filter_sublist.map _).append_right _)
  | passes q head state below =>
    rw [Ex.slots_passOver]
    exact ⟨hn, List.Subset.refl _⟩
  | exposes q mem near state queued exposing film high reach deferLimit bypassLimit registered deferral =>
    have hq : (f.queued.map (·.slot)).Sublist (e.queued.map (·.slot)) := queued ▸ List.filter_sublist.map _
    have hn' := (List.nodup_append.1 hn).1.sublist hq
    have hmem : q.slot ∈ e.queued.map (·.slot) := List.mem_map_of_mem mem
    have hnot : q.slot ∉ f.queued.map (·.slot) := by simp [queued]
    unfold Ex.slots
    cases hf : f.exposing with
    | none =>
      rw [Option.map_none, Option.toList_none, List.append_nil]
      exact ⟨hn', fun n h => List.mem_append_left _ (hq.subset h)⟩
    | some y =>
      have hy := exposing y hf
      rw [Option.map_some, Option.toList_some, hy]
      refine ⟨List.nodup_append.2 ⟨hn', by simp, ?_⟩, ?_⟩
      · intro a ha b hb hab
        rw [List.mem_singleton.1 hb] at hab
        exact hnot (hab ▸ ha)
      · refine List.append_subset.2 ⟨fun n h => List.mem_append_left _ (hq.subset h), ?_⟩
        intro n h
        rw [List.mem_singleton.1 h]
        exact List.mem_append_left _ hmem
  | defers | chooses | sets => exact ⟨hn, List.Subset.refl _⟩
  | cuts =>
    have hc : e.cutDone.slots = e.slots := by
      unfold Ex.cutDone Ex.rest
      split <;> rfl
    rw [hc]
    exact ⟨hn, List.Subset.refl _⟩

theorem slotLaw_exKept : ExKept SlotLaw where
  reads bs s t h hb := by
    unfold SlotLaw State.slotsTaken
    rw [h.ce (hb _ (by decide)), h.ex (hb _ (by decide))]
    exact id
  moves {s e} hs h := by
    obtain ⟨hn, hc⟩ := (slotLaw_iff s).1 hs
    obtain ⟨hn', hsub⟩ := h.slots hn
    exact (slotLaw_iff _).2 ⟨hn', fun c h hm => hc c h (hsub hm)⟩
  delivers {s c} hc hs l := by
    obtain ⟨hn, hnot⟩ := (slotLaw_iff s).1 hs
    refine (slotLaw_iff _).2 ⟨?_, fun d hd => by cases hd⟩
    have hp : (s.queues c.slot l).ex.slots.Perm (c.slot :: s.ex.slots) := by
      simp only [State.queues, Ex.slots, List.map_append, List.map_cons, List.map_nil, List.append_assoc, List.cons_append,
        List.nil_append]
      exact List.perm_middle
    exact hp.nodup_iff.2 (List.nodup_cons.2 ⟨hnot c hc, hn⟩)
  ends {s} hs := (slotLaw_iff _).2 ⟨((slotLaw_iff s).1 hs).1, fun d hd => by cases hd⟩
  begins {s} hc hs last c hn := by
    refine (slotLaw_iff _).2 ⟨((slotLaw_iff s).1 hs).1, fun d hd => ?_⟩
    cases hd
    simpa [s.slotsTaken_eq, hc] using hn
  goesOn {s c d} hc hd hs := by
    obtain ⟨hn, hnot⟩ := (slotLaw_iff s).1 hs
    refine (slotLaw_iff _).2 ⟨hn, fun d' h => ?_⟩
    cases h
    exact hd ▸ hnot c hc
  fresh hc hx := (slotLaw_iff _).2 (by rw [hc, hx]; simp [Ex.slots])

/-! ### The bypass counts (R143) -/

/-- The bypass law of the queue and its limit. -/
def Ex.bypassOk (e : Ex) : Prop :=
  (∀ q ∈ e.queued.tail, q.bypass = 0) ∧ (∀ q ∈ e.queued, q.bypass ≤ 7) ∧ e.bypassLimit ≤ 7

theorem Ex.bypassOk.sublist {e f : Ex} (h : e.bypassOk) (hq : f.queued.Sublist e.queued) (hl : f.bypassLimit = e.bypassLimit) :
    f.bypassOk :=
  ⟨fun q hm => h.1 q (hq.tail.subset hm), fun q hm => h.2.1 q (hq.subset hm), hl ▸ h.2.2⟩

theorem clampField_le (i v : Nat) (h : (exposeRanges.getD (i - 1) (0, 0)).1 ≤ (exposeRanges.getD (i - 1) (0, 0)).2) :
    clampField i v ≤ (exposeRanges.getD (i - 1) (0, 0)).2 := (clampNat_bounds h).2

/-- The count of O rises below the limit only, and O alone holds one. -/
theorem Ex.bypassOk.passOver {e : Ex} {o q : QueuedLine} {rest : List QueuedLine} (h : e.bypassOk) (hn : (e.queued.map (·.slot)).Nodup)
    (head : e.queued = o :: rest) (below : q.slot = o.slot ∨ o.bypass < e.bypassLimit) : (e.passOver o q).bypassOk := by
  obtain ⟨h1, h2, h3⟩ := h
  unfold Ex.passOver
  split
  · exact ⟨h1, h2, h3⟩
  · next hne =>
    have hlt := below.resolve_left hne
    rw [head] at h1 h2 hn
    have others : ∀ x ∈ rest, x.slot ≠ o.slot := by
      intro x hx hxo
      exact (List.nodup_cons.1 hn).1 (List.mem_map.2 ⟨x, hx, hxo⟩)
    have hmap : (o :: rest).map (fun x => if x.slot = o.slot then { x with bypass := x.bypass + 1 } else x) =
        { o with bypass := o.bypass + 1 } :: rest := by
      rw [List.map_cons, if_pos rfl]
      congr 1
      refine (List.map_congr_left fun x hx => if_neg (others x hx)).trans (List.map_id _)
    refine ⟨?_, ?_, h3⟩ <;> dsimp only <;> rw [head, hmap]
    · exact h1
    · intro x hx
      obtain rfl | hx := List.mem_cons.1 hx
      · dsimp only
        omega
      · exact h2 x (List.mem_cons_of_mem _ hx)

theorem Ex.Moves.bypassOk {e f : Ex} (h : Ex.Moves e f) (hn : e.slots.Nodup) (hb : e.bypassOk) : f.bypassOk := by
  cases h with
  | keeps queued film high reach deferLimit bypassLimit registered deferral chosen exposing =>
    exact hb.sublist (queued ▸ List.Sublist.refl _) bypassLimit
  | cancels c => exact hb.sublist List.filter_sublist rfl
  | loses n state => exact hb.sublist List.filter_sublist rfl
  | passes q head state below => exact hb.passOver (List.nodup_append.1 hn).1 head below
  | exposes q mem near state queued exposing film high reach deferLimit bypassLimit registered deferral =>
    exact hb.sublist (queued ▸ List.filter_sublist) bypassLimit
  | defers | chooses => exact hb
  | cuts =>
    unfold Ex.cutDone Ex.rest
    split <;> exact hb
  | sets fields state => exact ⟨hb.1, hb.2.1, clampField_le 4 _ (by decide)⟩

/-- The slots apart, and the bypass law. -/
def SlotBypassLaw (s : State) : Prop := SlotLaw s ∧ BypassLaw s

theorem slotBypassLaw_exKept : ExKept SlotBypassLaw where
  reads bs s t h hb hs := by
    refine ⟨slotLaw_exKept.reads bs s t h hb hs.1, ?_⟩
    unfold BypassLaw
    rw [h.ex (hb _ (by decide))]
    exact hs.2
  moves hs h := ⟨slotLaw_exKept.moves hs.1 h, h.bypassOk ((slotLaw_iff _).1 hs.1).1 hs.2⟩
  delivers {s c} hc hs l := by
    obtain ⟨h1, h2, h3⟩ := hs.2
    refine ⟨slotLaw_exKept.delivers hc hs.1 l, fun q hq => ?_, fun q hq => ?_, h3⟩
    · cases hl : s.ex.queued with
      | nil => simp [State.queues, hl] at hq
      | cons o rest =>
        simp only [State.queues, hl, List.cons_append, List.tail_cons, List.mem_append, List.mem_singleton] at hq
        obtain hq | rfl := hq
        · exact h1 q (by rw [hl]; exact hq)
        · rfl
    · simp only [State.queues, List.mem_append, List.mem_singleton] at hq
      obtain hq | rfl := hq
      · exact h2 q hq
      · exact Nat.zero_le _
  ends hs := ⟨slotLaw_exKept.ends hs.1, hs.2⟩
  begins hc hs last c hn := ⟨slotLaw_exKept.begins hc hs.1 last c hn, hs.2⟩
  goesOn hc hd hs := ⟨slotLaw_exKept.goesOn hc hd hs.1, hs.2⟩
  fresh hc hx := ⟨slotLaw_exKept.fresh hc hx, by unfold BypassLaw; rw [hx]; simp⟩

/-! ### The deferral count (R144) -/

theorem Ex.Moves.deferral {e f : Ex} (h : Ex.Moves e f) (hd : e.deferral ≤ e.deferLimit) : f.deferral ≤ f.deferLimit := by
  cases h with
  | keeps queued film high reach deferLimit bypassLimit registered deferral chosen exposing =>
    rw [deferLimit]
    exact deferral.trans hd
  | passes q head state below =>
    unfold Ex.passOver
    split <;> exact hd
  | exposes q mem near state queued exposing film high reach deferLimit bypassLimit registered deferral =>
    rw [deferLimit, deferral]
    exact hd
  | defers state below => exact below
  | cuts =>
    unfold Ex.cutDone Ex.rest
    split <;> exact hd
  | sets fields state => exact Nat.min_le_right _ _
  | cancels | loses | chooses => exact hd

theorem deferralLaw_exKept : ExKept DeferralLaw where
  reads bs s t h hb := by
    unfold DeferralLaw
    rw [h.ex (hb _ (by decide))]
    exact id
  moves hs h := h.deferral hs
  delivers _ hs _ := hs
  ends hs := hs
  begins _ hs _ _ _ := hs
  goesOn _ _ hs := hs
  fresh _ hx := by
    unfold DeferralLaw
    rw [hx]
    decide

/-! ### The film (R140) -/

/-- The film law of the exposure controller. -/
def Ex.filmOk (e : Ex) : Prop :=
  (e.registered = true → e.high ≤ e.film + e.reach) ∧
    (e.state = .calibrating → e.registered = true → ∀ n, e.chosen = some ⟨n, false⟩ →
      ∃ q ∈ e.queued, q.slot = n ∧ e.high ≤ q.line.header.baseline + e.reach)

/-- A move outside a calibration that leaves the reach as it is. -/
theorem Ex.filmOk.outside {e f : Ex} (h : e.filmOk) (state : f.state ≠ .calibrating) (film : f.film = e.film) (high : f.high = e.high)
    (reach : f.reach = e.reach) (registered : f.registered = e.registered) : f.filmOk := by
  refine ⟨?_, fun hst => absurd hst state⟩
  rw [film, high, reach, registered]
  exact h.1

/-- The slots apart, the chosen line is the line of its slot. -/
theorem Ex.chosenLine_near {e : Ex} {q : QueuedLine} (h : e.filmOk) (hn : (e.queued.map (·.slot)).Nodup) (hst : e.state = .calibrating)
    (hr : e.registered = true) (hq : e.chosenLine = some q) : e.high ≤ q.line.header.baseline + e.reach := by
  obtain ⟨hmem, hch⟩ := Ex.chosenLine_mem hq
  obtain ⟨p, hp, hslot, hnear⟩ := h.2 hst hr _ hch
  rwa [List.inj_on_of_nodup_map hn hp hmem hslot] at hnear

theorem Ex.Moves.filmOk {e f : Ex} (h : Ex.Moves e f) (hn : e.slots.Nodup) (hf : e.filmOk) : f.filmOk := by
  have hq := (List.nodup_append.1 hn).1
  cases h with
  | keeps queued film high reach deferLimit bypassLimit registered deferral chosen exposing =>
    refine ⟨fun hr => ?_, fun hst hr n hc => ?_⟩
    · rw [film, high, reach]
      exact hf.1 (registered hr)
    · obtain hnone | ⟨he, hsame⟩ := chosen hst
      · rw [hnone] at hc
        cases hc
      · rw [queued, high, reach]
        exact hf.2 he (registered hr) n (hsame ▸ hc)
  | cancels c =>
    refine ⟨hf.1, fun hst hr n hc => ?_⟩
    obtain ⟨x, hx, hxn⟩ := Option.map_eq_some_iff.1 hc
    simp only [ChosenLine.mk.injEq, Bool.or_eq_false_iff] at hxn
    obtain ⟨rfl, hrem, hany⟩ := hxn
    obtain ⟨q, hmem, hslot, hnear⟩ := hf.2 hst hr x.slot (by rw [hx, ← hrem])
    have hother : q.ofChannel c = false := by
      have := List.any_eq_false.1 hany q hmem
      simpa [hslot] using this
    exact ⟨q, List.mem_filter.2 ⟨hmem, by simp [hother]⟩, hslot, hnear⟩
  | loses n state => exact hf.outside state rfl rfl rfl rfl
  | passes q head state below =>
    unfold Ex.passOver
    split
    · exact hf
    · exact hf.outside state rfl rfl rfl rfl
  | exposes q mem near state queued exposing film high reach deferLimit bypassLimit registered deferral =>
    refine ⟨fun hr => ?_, fun hst => ?_⟩
    · have hnear : e.high ≤ q.line.header.baseline + e.reach := by
        obtain hnear | ⟨hst, hch⟩ := near
        · exact hnear
        · exact Ex.chosenLine_near hf hq hst (registered ▸ hr) hch
      rw [film, high, reach]
      omega
    · rw [state] at hst
      cases hst
  | defers state below => exact hf.outside state rfl rfl rfl rfl
  | chooses q mem near =>
    refine ⟨hf.1, fun _ _ n hc => ?_⟩
    cases hc
    exact ⟨q, mem, rfl, near⟩
  | cuts =>
    unfold Ex.cutDone Ex.rest
    split <;> exact ⟨fun _ => Nat.zero_le _, fun hst => by cases hst⟩
  | sets fields state =>
    refine ⟨fun hr => ?_, fun hst => absurd hst state⟩
    have hr' : e.registered = true := hr
    simp only [Ex.set, Ex.raiseReach, hr', if_true]
    omega

/-- The slots apart, and the film law. -/
def SlotFilmLaw (s : State) : Prop := SlotLaw s ∧ FilmLaw s

theorem slotFilmLaw_exKept : ExKept SlotFilmLaw where
  reads bs s t h hb hs := by
    refine ⟨slotLaw_exKept.reads bs s t h hb hs.1, ?_⟩
    unfold FilmLaw
    rw [h.ex (hb _ (by decide))]
    exact hs.2
  moves hs h := ⟨slotLaw_exKept.moves hs.1 h, h.filmOk ((slotLaw_iff _).1 hs.1).1 hs.2⟩
  delivers hc hs l := by
    refine ⟨slotLaw_exKept.delivers hc hs.1 l, hs.2.1, fun hst hr n hn => ?_⟩
    obtain ⟨q, hq, h⟩ := hs.2.2 hst hr n hn
    exact ⟨q, List.mem_append_left _ hq, h⟩
  ends hs := ⟨slotLaw_exKept.ends hs.1, hs.2⟩
  begins hc hs last c hn := ⟨slotLaw_exKept.begins hc hs.1 last c hn, hs.2⟩
  goesOn hc hd hs := ⟨slotLaw_exKept.goesOn hc hd hs.1, hs.2⟩
  fresh hc hx := ⟨slotLaw_exKept.fresh hc hx, by unfold FilmLaw; rw [hx]; simp⟩

/-- Settles O59. -/
theorem stepKeepsFilmLaw : Obligations.StepKeepsFilmLaw := fun _ _ h1 h2 h => (slotFilmLaw_exKept.kept.step ⟨h1, h2⟩ h).2

/-! ### The outbound lane (R157) -/

/-- From `s` to `t` the lane only gains records, and no byte is acknowledged. -/
def LaneGrows (s t : State) : Prop := t.sa.acked = s.sa.acked ∧ s.sa.lane <+: t.sa.lane

theorem LaneGrows.of_eq {s t : State} (ha : t.sa.acked = s.sa.acked) (hl : t.sa.lane = s.sa.lane) : LaneGrows s t :=
  ⟨ha, hl ▸ List.prefix_refl _⟩

theorem LaneGrows.of_touches {s t : State} {bs : List Block} (h : Touches bs s t) (hb : .sa ∉ bs) : LaneGrows s t := by
  refine .of_eq ?_ ?_ <;> rw [h.sa hb]

theorem LaneGrows.trans {s t u : State} (h : LaneGrows s t) (k : LaneGrows t u) : LaneGrows s u := ⟨k.1.trans h.1, h.2.trans k.2⟩

theorem LaneLaw.grows {s t : State} (hs : LaneLaw s) (h : LaneGrows s t) : LaneLaw t := by
  obtain ⟨ha, hl⟩ := h
  refine ⟨fun ht => ?_, fun r rest ht => ?_⟩
  · rw [ht, List.prefix_nil] at hl
    exact ha.trans (hs.1 hl)
  · rw [ha]
    cases hc : s.sa.lane with
    | nil =>
      rw [hs.1 hc]
      exact r.bytes_pos
    | cons q qs =>
      rw [hc, ht] at hl
      obtain ⟨rfl, -⟩ := List.cons_prefix_cons.1 hl
      exact hs.2 _ _ hc

/-- An idle lane in which no byte is acknowledged. -/
theorem LaneLaw.of_idle {s : State} (ha : s.sa.acked = 0) : LaneLaw s :=
  ⟨fun _ => ha, fun r _ _ => by rw [ha]; exact r.bytes_pos⟩

theorem State.pumpSa_grows (s : State) : LaneGrows s s.pumpSa := by
  obtain ⟨-, hl, ha, -⟩ := s.pumpSa_frame
  exact .of_eq ha hl

theorem State.send_grows (s : State) : LaneGrows s s.send := by
  refine ⟨s.send_acked, ?_⟩
  have prefixed : ∀ t, State.SendsNext s t → s.sa.lane <+: t.sa.lane := by
    intro t h
    cases h with
    | busy => exact List.prefix_refl _
    | idle => exact List.prefix_refl _
    | ends h => rw [h]; exact List.nil_prefix
    | waits => exact List.prefix_refl _
    | sends h => rw [h]; exact List.nil_prefix
    | passes h => rw [h]; exact List.nil_prefix
  exact prefixed _ s.send_sendsNext

theorem State.masterArrived_grows (r : FetchReq) (data : Bytes) (s : State) : LaneGrows s (s.masterArrived r data) := by
  have sent (u : State) (ha : u.sa.acked = s.sa.acked) (hl : u.sa.lane = s.sa.lane) : LaneGrows s u.send :=
    (LaneGrows.of_eq ha hl).trans u.send_grows
  unfold State.masterArrived
  dsimp only
  split
  · split
    · exact sent _ rfl rfl
    · split
      · exact .of_eq rfl rfl
      · split
        · exact sent _ rfl rfl
        · refine LaneGrows.trans ?_ (State.pumpSa_grows _)
          exact .of_eq rfl rfl
  · exact .of_eq rfl rfl

theorem Sa.sentRecord_lane (a : Sa) : a.sentRecord.lane = a.lane ∧ a.sentRecord.acked = a.acked := by
  unfold Sa.sentRecord
  split
  · exact ⟨rfl, rfl⟩
  · split <;> exact ⟨rfl, rfl⟩

theorem State.recordSent_grows (r : OutRecord) (s : State) : LaneGrows s (s.recordSent r) := by
  have next : LaneGrows s (State.pumpSa { s with sa := s.sa.sentRecord }).send :=
    (LaneGrows.of_eq (t := { s with sa := s.sa.sentRecord }) s.sa.sentRecord_lane.2 s.sa.sentRecord_lane.1).trans
      ((State.pumpSa_grows _).trans (State.send_grows _))
  cases r with
  | lineBegin => exact s.send_grows
  | strike => exact next
  | extend => exact next
  | lineEnd => exact .of_eq rfl rfl
  | calibrate => exact .of_eq rfl rfl
  | cut => exact .of_eq rfl rfl

theorem State.deliver_grows (r : FetchReq) (data : Bytes) (s : State) : LaneGrows s (s.deliver r data) := by
  unfold State.deliver
  split
  · exact .of_touches (s.mountPage_touches r data) (by decide)
  · exact s.masterArrived_grows r data
  · exact .of_touches (s.sequencerRead_touches data) (by decide)
  · exact .of_eq rfl rfl

theorem State.expose_grows (q : QueuedLine) (s : State) : LaneGrows s (s.expose q) := by
  unfold State.expose State.assemble
  refine LaneGrows.trans ?_ (State.pumpSa_grows _)
  exact ⟨rfl, List.prefix_append _ _⟩

theorem State.calibrate_grows (s : State) : LaneGrows s s.calibrate := ⟨rfl, List.prefix_append _ _⟩

theorem State.cut_grows (s : State) : LaneGrows s s.cut := ⟨rfl, List.prefix_append _ _⟩

theorem State.take_grows (q : QueuedLine) (s : State) : LaneGrows s (s.take q) := by
  unfold State.take
  split
  · exact s.expose_grows q
  · split
    · exact State.expose_grows q { s with ex := _ }
    · exact State.calibrate_grows { s with ex := _ }

theorem State.arbitrate_grows (n : Nat) (s : State) : LaneGrows s (s.arbitrate n) := by
  induction n generalizing s with
  | zero => exact .of_eq rfl rfl
  | succ n ih =>
    unfold State.arbitrate
    split
    · exact .of_eq rfl rfl
    · split
      · exact (LaneGrows.of_touches (s.loseChannel_touches _) (by decide)).trans (ih _)
      · exact State.take_grows _ { s with ex := _ }

theorem State.calibrated_grows (s : State) : LaneGrows s s.calibrated := by
  unfold State.calibrated
  dsimp only
  split
  · exact State.cut_grows { s with ex := _ }
  · split
    · exact .of_eq rfl rfl
    · split
      · exact State.expose_grows _ { s with ex := _ }
      · exact .of_eq rfl rfl

theorem State.takeDone_grows (s : State) : LaneGrows s s.takeDone := by
  unfold State.takeDone
  split
  · exact .of_eq rfl rfl
  · split
    · exact .of_touches (s.exposed_touches _) (by decide)
    · exact s.calibrated_grows
    · exact .of_eq rfl rfl
    · exact .of_eq rfl rfl

theorem State.stopPort_laneLaw {s : State} (hs : LaneLaw s) : LaneLaw s.stopPort := by
  unfold State.stopPort
  split
  · exact .of_idle rfl
  · exact .of_idle rfl
  · exact .of_idle rfl
  · exact hs

theorem State.enterFaulted_laneLaw {s : State} (hs : LaneLaw s) (cause : FaultCause) (why : LossReason) :
    LaneLaw (s.enterFaulted cause why) := by
  unfold State.enterFaulted
  refine LaneLaw.grows ?_ (.of_touches (State.fetchesIdle_touches _) (by decide))
  exact ((State.stopPort_laneLaw hs).grows (.of_touches (State.loseExposing_touches why _) (by decide))).grows (.of_eq rfl rfl)

theorem State.takeFault_laneLaw {s : State} (hs : LaneLaw s) (cause : FaultCause) : LaneLaw (s.takeFault cause) := by
  unfold State.takeFault
  split
  · exact hs
  · exact State.enterFaulted_laneLaw hs cause _

theorem State.returnByte_laneLaw {s : State} (hs : LaneLaw s) (b : Byte) : LaneLaw (s.returnByte b) :=
  State.returnByte_keeps hs (fun _ _ h => h) (fun _ c h => State.takeFault_laneLaw h c) (fun u h => h.grows u.takeDone_grows) b

theorem actFilmCut_grows (s : State) : LaneGrows s (actFilmCut s).1 := by
  unfold actFilmCut
  split
  · exact .of_eq rfl rfl
  · dsimp only
    split
    · exact ⟨rfl, List.prefix_append _ _⟩
    · exact ⟨rfl, List.prefix_append _ _⟩

theorem State.entered_grows (q : Requester) (s : State) : LaneGrows s (s.entered q) := by
  cases q with
  | strike => exact s.pumpSa_grows
  | mount => exact .of_touches s.pumpLoader_touches (by decide)
  | sequencer => exact .of_eq rfl rfl
  | link => exact .of_touches (s.answer_touches (.accept [])) (by decide)

theorem laneLaw_kept : Kept [.sa] LaneLaw where
  reads bs s t h hb hs := hs.grows (.of_touches h (hb _ (by decide)))
  link := by decide
  act tag target o s hb hs := by
    cases o with
    | filmCut => exact hs.grows (actFilmCut_grows s)
    | _ => simp [Order.blocks] at hb
  event i s t hi hb hs h := by
    have settled {u : State} (hu : LaneLaw u) : LaneLaw u.settle := hu
    cases i with
    | fetchRequestEntry =>
      obtain rfl | ⟨r, rest, -, -, rfl⟩ := execFetchRequestEntry_cases h
      · exact hs
      · exact settled (LaneLaw.grows (s := { s with fs := s.fs.enter r rest }) hs (State.entered_grows _ _))
    | transferComplete =>
      obtain rfl | ⟨r, wanted, -, rfl⟩ := execTransferComplete_cases h
      · exact hs
      · have ht : LaneLaw (s.transferred r) := hs
        refine settled (LaneLaw.grows ?_ (.of_touches (State.idleReport_touches _ _) (by decide)))
        split
        · exact ht.grows (State.deliver_grows r _ _)
        · exact ht
    | filmArbiter =>
      obtain rfl | ⟨-, rfl⟩ := execFilmArbiter_cases h
      · exact hs
      · exact settled (hs.grows (s.arbitrate_grows _))
    | recordSent =>
      obtain rfl | ⟨r, rest, -, rfl⟩ := execRecordSent_cases h
      · exact hs
      · refine settled (LaneLaw.grows ?_ (State.recordSent_grows r _))
        exact .of_idle rfl
    | unitDone =>
      cases h
      exact settled (State.returnByte_laneLaw hs _)
    | unitFault b =>
      cases h
      exact settled (State.returnByte_laneLaw (State.returnByte_laneLaw hs _) _)
    | exposureTimeout =>
      obtain rfl | ⟨d, -, rfl⟩ := execExposureTimeout_cases h
      · exact hs
      · exact settled (State.enterFaulted_laneLaw (s := { s with time := max s.time d }) hs _ _)
    | unknownReturnByte b =>
      cases h
      exact settled (State.returnByte_laneLaw hs _)
    | _ => simp_all [blocksOf, isEvent, orderOf]
  reset record phase s _ := .of_idle rfl
  engine hb := absurd hb (by decide)
  acks _ _ hs := State.unitAcks_laneLaw hs

/-- Settles O58. -/
theorem stepKeepsExposureQueueLaws : Obligations.StepKeepsExposureQueueLaws := fun _ _ h =>
  ⟨fun hs => slotLaw_exKept.kept.step hs h, fun h1 h2 => (slotBypassLaw_exKept.kept.step ⟨h1, h2⟩ h).2,
    fun hs => deferralLaw_exKept.kept.step hs h, fun hs => laneLaw_kept.step hs h⟩

end Sys2Proof.Machine
end


section
/-! PROOF. Every step keeps each position's count equal to the number of lines that hold a reference to it (R27, R78). -/

namespace Sys2Proof.Machine

/-! ### Counts and references -/

/-- R27, R32: the counts of the positions are those of a list of references, only MOUNTED positions have any, and a load is in a position
that is LOADING its face. -/
structure Fdm.Refers (d : Fdm) (us : List (Fin 8)) : Prop where
  count : ∀ p : Fin 8, d.pos[p].count = us.count p
  mounted : ∀ p : Fin 8, d.pos[p].count ≠ 0 → ∃ f, d.pos[p].state = .mounted f
  loading : ∀ l, d.load = some l → d.pos[l.pos].state = .loading l.face

/-- Two mount units with the same positions, and a load of the same face in the same position. -/
structure SameMounts (d e : Fdm) : Prop where
  pos : e.pos = d.pos
  load : e.load.map (fun l => (l.pos, l.face)) = d.load.map (fun l => (l.pos, l.face))

theorem SameMounts.refl (d : Fdm) : SameMounts d d := ⟨rfl, rfl⟩

theorem SameMounts.trans {c d e : Fdm} (h : SameMounts c d) (k : SameMounts d e) : SameMounts c e :=
  ⟨k.pos.trans h.pos, k.load.trans h.load⟩

theorem SameMounts.of_touches {s t : State} {bs : List Block} (h : Touches bs s t) (hb : .fdm ∉ bs) : SameMounts s.fdm t.fdm :=
  h.fdm hb ▸ .refl _

theorem Fdm.Refers.same {d e : Fdm} {us : List (Fin 8)} (h : d.Refers us) (k : SameMounts d e) : e.Refers us where
  count p := by rw [k.pos]; exact h.count p
  mounted p := by rw [k.pos]; exact h.mounted p
  loading l hl := by
    have hk := k.load
    rw [hl] at hk
    obtain ⟨m, hm, hlm⟩ := Option.map_eq_some_iff.1 hk.symm
    obtain ⟨p, f, _, _, _⟩ := l
    obtain ⟨rfl, rfl⟩ := Prod.mk.inj hlm
    rw [k.pos]
    exact h.loading m hm

theorem Fdm.Refers.counts {d : Fdm} {us vs : List (Fin 8)} (h : d.Refers us) (k : ∀ p, vs.count p = us.count p) : d.Refers vs :=
  ⟨fun p => (h.count p).trans (k p).symm, h.mounted, h.loading⟩

theorem Fdm.Refers.not_mounted {d : Fdm} {us : List (Fin 8)} (h : d.Refers us) {p : Fin 8} (hp : ∀ f, d.pos[p].state ≠ .mounted f) :
    d.pos[p].count = 0 := by
  by_contra h0
  obtain ⟨f, hf⟩ := h.mounted p h0
  exact hp f hf

theorem Fdm.Refers.load_count {d : Fdm} {us : List (Fin 8)} (h : d.Refers us) {l : Load} (hl : d.load = some l) :
    d.pos[l.pos].count = 0 :=
  h.not_mounted fun f hf => by rw [h.loading l hl] at hf; cases hf

/-! ### References that end -/

theorem Fdm.retireFrom_load (d : Fdm) (p : Fin 8) : (d.retireFrom p).1.load = d.load := by
  unfold Fdm.retireFrom
  split
  · split <;> rfl
  · rfl

theorem Fdm.decRefs_load (ps : List (Fin 8)) (d : Fdm) : (Fdm.decRefs ps d).1.load = d.load := by
  induction ps generalizing d with
  | nil => rfl
  | cons p ps ih =>
    refine (ih _).trans ?_
    unfold Fdm.decRef
    dsimp only
    split
    · exact Fdm.retireFrom_load _ p
    · rfl

/-- A position that keeps a count when a reference ends keeps its state. -/
theorem Fdm.decRef_state {d : Fdm} {p x : Fin 8} (h : (d.decRef p).1.pos[x].count ≠ 0) :
    (d.decRef p).1.pos[x].state = d.pos[x].state := by
  by_cases hx : x = p
  · subst hx
    unfold Fdm.decRef at h ⊢
    dsimp only at h ⊢
    split at h
    · next h0 => exact absurd ((Fdm.retireFrom_pos _ x x).2 h0) h
    · next h0 =>
      rw [if_neg h0]
      simp only [Fdm.setPos, setAt_get, if_true]
  · rw [(d.decRef_pos p x).2 hx]

theorem Fdm.decRefs_state {x : Fin 8} (ps : List (Fin 8)) (d : Fdm) (h : (Fdm.decRefs ps d).1.pos[x].count ≠ 0) :
    (Fdm.decRefs ps d).1.pos[x].state = d.pos[x].state := by
  induction ps generalizing d with
  | nil => rfl
  | cons p ps ih =>
    refine (ih _ h).trans (Fdm.decRef_state fun h0 => h ?_)
    change (Fdm.decRefs ps (d.decRef p).1).1.pos[x].count = 0
    rw [(Fdm.decRefs_pos x ps _).1, h0, Nat.zero_sub]

/-- R27: the references of a list end. -/
theorem Fdm.Refers.decRefs {d : Fdm} {us ps vs : List (Fin 8)} (h : d.Refers us) (k : ∀ p, us.count p = ps.count p + vs.count p) :
    (Fdm.decRefs ps d).1.Refers vs where
  count p := by
    rw [(Fdm.decRefs_pos p ps d).1, h.count, k]
    omega
  mounted p hp := by
    rw [Fdm.decRefs_state ps d hp]
    refine h.mounted p fun h0 => hp ?_
    rw [(Fdm.decRefs_pos p ps d).1, h0, Nat.zero_sub]
  loading l hl := by
    rw [Fdm.decRefs_load] at hl
    have h0 := h.load_count hl
    rw [h.count, k] at h0
    rw [(Fdm.decRefs_pos l.pos ps d).2 (List.count_eq_zero.1 (by omega))]
    exact h.loading l hl

/-! ### Positions that change -/

/-- A position with no reference changes, and no load is in it after. -/
theorem Fdm.Refers.setPos {d : Fdm} {us : List (Fin 8)} (h : d.Refers us) {p : Fin 8} (hp : d.pos[p].count = 0) {x : MountPos}
    (hx : x.count = 0) (hl : ∀ l, d.load = some l → l.pos = p → x.state = .loading l.face) : (d.setPos p x).Refers us where
  count q := by
    simp only [Fdm.setPos, setAt_get]
    split
    · next e => rw [hx, e, ← h.count, hp]
    · exact h.count q
  mounted q := by
    simp only [Fdm.setPos, setAt_get]
    split
    · exact fun h0 => absurd hx h0
    · exact h.mounted q
  loading l hl' := by
    simp only [Fdm.setPos, setAt_get]
    split
    · next e => exact hl l hl' e
    · exact h.loading l hl'

theorem Fdm.Refers.unload {d : Fdm} {us : List (Fin 8)} (h : d.Refers us) : Fdm.Refers { d with load := none } us :=
  ⟨h.count, h.mounted, fun _ hl => by cases hl⟩

/-- R27: a line's first use of a MOUNTED position. -/
theorem Fdm.Refers.incRef {d : Fdm} {us : List (Fin 8)} (h : d.Refers us) {p : Fin 8} {f : Fin 128} (hp : d.pos[p].state = .mounted f)
    {vs : List (Fin 8)} (k : ∀ q, vs.count q = us.count q + (if q = p then 1 else 0)) : (d.incRef p).Refers vs where
  count q := by
    rw [k]
    simp only [Fdm.incRef, Fdm.setPos, setAt_get]
    split
    · next e => rw [← h.count, e]
    · exact h.count q
  mounted q := by
    simp only [Fdm.incRef, Fdm.setPos, setAt_get]
    split
    · exact fun _ => ⟨f, hp⟩
    · exact h.mounted q
  loading l hl := by
    simp only [Fdm.incRef, Fdm.setPos, setAt_get]
    split
    · next e =>
      subst e
      exact h.loading l hl
    · exact h.loading l hl

/-- R29: a position chosen for a mount has no reference. -/
theorem Fdm.Refers.choose {d : Fdm} {us : List (Fin 8)} (h : d.Refers us) {f : Fin 128} {p : Fin 8} (hp : d.choose f = some p) :
    d.pos[p].count = 0 := by
  unfold Fdm.choose at hp
  dsimp only at hp
  simp only [Option.or_eq_some_iff] at hp
  obtain hp | ⟨-, hp | ⟨-, hp | ⟨-, hp⟩⟩⟩ := hp
  · refine h.not_mounted fun g hg => ?_
    have := List.find?_some hp
    beta_reduce at this
    rw [hg] at this
    simp at this
  · refine h.not_mounted fun g hg => ?_
    have := List.find?_some hp
    beta_reduce at this
    rw [hg] at this
    simp at this
  · refine h.not_mounted fun g hg => ?_
    have := List.find?_some hp
    beta_reduce at this
    rw [hg] at this
    simp at this
  · have := List.find?_some hp
    beta_reduce at this
    split at this
    · simpa using this
    · cases this

/-- R21: a face retires from a position with no reference and no load. -/
theorem Fdm.Refers.retireFrom {d : Fdm} {us : List (Fin 8)} (h : d.Refers us) {p : Fin 8} (hp : d.pos[p].count = 0)
    (hl : ∀ l, d.load = some l → l.pos ≠ p) : (d.retireFrom p).1.Refers us := by
  unfold Fdm.retireFrom
  split
  · split
    · exact (h.setPos hp (x := {}) rfl fun l e ep => absurd ep (hl l e)).same ⟨rfl, rfl⟩
    · exact h
  · exact h

theorem pumpMount_same (n : Nat) (d : Fdm) (f : Fs) : SameMounts d (pumpMount n d f).1 := by
  induction n generalizing d f with
  | zero => exact .refl d
  | succ n ih =>
    unfold pumpMount
    split
    · next l hl =>
      split
      · split
        · refine SameMounts.trans ?_ (ih _ _)
          exact ⟨rfl, by rw [hl]; rfl⟩
        · exact .refl d
      · exact .refl d
    · exact .refl d

theorem Fdm.foldl_touch_same (ps : List (Fin 8)) (d : Fdm) : SameMounts d (ps.foldl Fdm.touch d) := by
  induction ps generalizing d with
  | nil => exact .refl d
  | cons p ps ih => exact (SameMounts.mk (d := d) (e := d.touch p) rfl rfl).trans (ih (d.touch p))

theorem Fdm.requestMount_same (d : Fdm) (f : Fin 128) (c : Fin 4) : SameMounts d (d.requestMount f c) := by
  unfold Fdm.requestMount
  split <;> exact ⟨rfl, rfl⟩

theorem Ending.request_same (e : Ending) (c : Fin 4) (d : Fdm) : SameMounts d (e.request c d) := by
  unfold Ending.request
  split
  · exact d.requestMount_same _ c
  · exact .refl d

theorem State.reachHold_same (c : Fin 4) (s : State) : SameMounts s.fdm (s.reachHold c).fdm := by
  unfold State.reachHold
  split <;> exact ⟨rfl, rfl⟩

/-! ### Loading -/

theorem endLoad_refers {d : Fdm} {us : List (Fin 8)} (h : d.Refers us) {l : Load} (hl : d.load = some l) (fail : Option MountCause) :
    Fdm.Refers { (endLoad d l fail).1 with load := none } us ∧ (endLoad d l fail).1.pos[l.pos].count = 0 := by
  have h0 := h.load_count hl
  unfold endLoad
  cases fail with
  | none =>
    refine ⟨(h.unload.setPos (p := l.pos) (x := { d.pos[l.pos] with state := .mounted l.face, count := 0 }) h0 rfl
      (fun _ e => by cases e)).same ⟨rfl, rfl⟩, ?_⟩
    simp [Fdm.touch, Fdm.setPos]
  | some c =>
    refine ⟨(h.unload.setPos (p := l.pos) (x := { state := .failed l.face c }) h0 rfl (fun _ e => by cases e)).same ⟨rfl, rfl⟩, ?_⟩
    simp [Fdm.touch, Fdm.setPos]

theorem State.loadEnds_refers {s : State} {us : List (Fin 8)} (h : s.fdm.Refers us) {l : Load} (hl : s.fdm.load = some l)
    (fail : Option MountCause) : (s.loadEnds l fail).fdm.Refers us := by
  obtain ⟨h1, h2⟩ := endLoad_refers h hl fail
  unfold State.loadEnds
  dsimp only
  rw [(State.wake_touches _ _).fdm (by decide), State.postAll_fdm]
  refine Fdm.Refers.retireFrom ?_ h2 ?_
  · exact ⟨h1.count, h1.mounted, fun _ e => by cases e⟩
  · exact fun _ e => by cases e

theorem State.mountPage_refers {s : State} {us : List (Fin 8)} (h : s.fdm.Refers us) (r : FetchReq) (data : Bytes) :
    (s.mountPage r data).fdm.Refers us := by
  have pumps (d : Fdm) (hd : d.Refers us) : (State.pumpLoader { s with fdm := d }).fdm.Refers us := hd.same (pumpMount_same _ _ _)
  unfold State.mountPage
  split
  · exact h
  · next l hl =>
    have placed (m : List (Nat × Bytes)) : (s.fdm.setPos l.pos { s.fdm.pos[l.pos] with memory := m }).Refers us :=
      h.setPos (h.load_count hl) (h.load_count hl) fun l' e _ => by
        cases hl.symm.trans e
        exact h.loading l hl
    dsimp only
    split
    · split
      · exact State.loadEnds_refers (s := { s with fdm := _ }) (placed _) hl _
      · split
        · exact State.loadEnds_refers (s := { s with fdm := _ }) (placed _) hl _
        · refine pumps _ ((placed _).same ⟨rfl, ?_⟩)
          change _ = s.fdm.load.map _
          rw [hl]
          rfl
    · split
      · exact State.loadEnds_refers (s := { s with fdm := _ }) (placed _) hl _
      · exact pumps _ (placed _)

theorem State.deliver_refers {s : State} {us : List (Fin 8)} (h : s.fdm.Refers us) (r : FetchReq) (data : Bytes) :
    (s.deliver r data).fdm.Refers us := by
  unfold State.deliver
  split
  · exact State.mountPage_refers h r data
  · exact h.same (.of_touches (s.masterArrived_touches r data) (by decide))
  · exact h.same (.of_touches (s.sequencerRead_touches data) (by decide))
  · exact h

theorem State.beginLoad_refers {s : State} {us : List (Fin 8)} (h : s.fdm.Refers us) (q : MountReq) {p : Fin 8}
    (hl : s.fdm.load = none) (hp : s.fdm.choose q.face = some p) : (s.beginLoad q p).fdm.Refers us := by
  have hs : (s.fdm.setPos p { state := .loading q.face }).Refers us :=
    h.setPos (h.choose hp) rfl fun l e _ => by rw [hl] at e; cases e
  refine ⟨hs.count, hs.mounted, fun l e => ?_⟩
  cases e
  simp [State.beginLoad, Fdm.setPos]

theorem State.retireNow_refers {s : State} {us : List (Fin 8)} (h : s.fdm.Refers us) {f : Fin 128} (hf : s.fdm.inUse f = false) :
    (s.retireNow f).fdm.Refers us := by
  unfold State.retireNow
  dsimp only
  rw [(State.wake_touches _ _).fdm (by decide)]
  refine Fdm.Refers.same (d := match s.fdm.posOf f with
    | some p => s.fdm.emptyPos p
    | none => s.fdm) ?_ ⟨rfl, rfl⟩
  unfold Fdm.inUse at hf
  split
  · next p hp =>
    rw [hp] at hf
    dsimp only at hf
    split at hf
    · cases hf
    · next hst =>
      refine h.setPos (by simpa using hf) rfl fun l e ep => ?_
      exact absurd (ep ▸ h.loading l e) (hst l.face)
  · exact h

theorem State.entered_same (q : Requester) (s : State) : SameMounts s.fdm (s.entered q).fdm := by
  cases q with
  | mount => exact pumpMount_same _ _ _
  | strike => exact .of_touches s.pumpSa_touches (by decide)
  | sequencer => exact .refl _
  | link => exact .of_touches (s.answer_touches (.accept [])) (by decide)

end Sys2Proof.Machine
end


section
/-! PROOF. The references that lines hold (R27, R78), kept by every step. -/

namespace Sys2Proof.Machine

/-! ### The references of the lines -/

/-- The positions that QUEUED and EXPOSING lines hold references to. -/
def Ex.uses (e : Ex) : List (Fin 8) := e.queued.flatMap (·.line.used) ++ (e.exposing.map (·.line.used)).getD []

/-- The positions that lines being composed, QUEUED and EXPOSING hold references to. -/
def State.uses (s : State) : List (Fin 8) := (s.ce.comp.map (·.used)).getD [] ++ s.ex.uses

/-- R27, R78: the lines' lists hold each position once, and the positions' counts are the lines' references. -/
structure Referred (s : State) : Prop where
  used : UsedLaw s
  refers : s.fdm.Refers s.uses

theorem count_flatMap_nodup (p : Fin 8) (qs : List QueuedLine) (h : ∀ q ∈ qs, q.line.used.Nodup) :
    (qs.flatMap (·.line.used)).count p = (qs.filter (fun q => decide (p ∈ q.line.used))).length := by
  induction qs with
  | nil => rfl
  | cons q qs ih =>
    rw [List.flatMap_cons, List.count_append, ih fun x hx => h x (List.mem_cons_of_mem _ hx),
      (h q List.mem_cons_self).count, List.filter_cons]
    split
    · next hp => simp [hp, Nat.add_comm]
    · next hp => simp [hp]

/-- R27: the lines that use a position, counted by their references. -/
theorem State.users_eq {s : State} (h : UsedLaw s) (p : Fin 8) : s.users p = s.uses.count p := by
  obtain ⟨h1, h2, h3⟩ := h
  unfold State.users State.uses Ex.uses
  rw [List.count_append, List.count_append, count_flatMap_nodup p _ h2, ← Nat.add_assoc]
  congr 1
  · congr 1
    cases hc : s.ce.comp with
    | none => rfl
    | some c => exact (h1 c hc).1.count.symm
  · cases hx : s.ex.exposing with
    | none => rfl
    | some x => exact (h3 x hx).1.count.symm

theorem referred_iff (s : State) : Referred s ↔ UsedLaw s ∧ ReferenceLaw s := by
  constructor
  · rintro ⟨hu, hr⟩
    exact ⟨hu, fun p => (hr.count p).trans (State.users_eq hu p).symm, hr.mounted, hr.loading⟩
  · rintro ⟨hu, hc, hm, hl⟩
    exact ⟨hu, fun p => (hc p).trans (State.users_eq hu p), hm, hl⟩

/-- The same lines, whatever else of the EX has changed; an EXPOSING line leaves it EXPOSING. -/
structure SameLines (e f : Ex) : Prop where
  queued : f.queued.map (·.line.used) = e.queued.map (·.line.used)
  exposing : f.exposing.map (·.line.used) = e.exposing.map (·.line.used)
  state : e.exposing ≠ none → e.state = .exposing → f.state = .exposing

theorem SameLines.refl (e : Ex) : SameLines e e := ⟨rfl, rfl, fun _ h => h⟩

theorem SameLines.of_eq {e f : Ex} (h : f = e) : SameLines e f := h ▸ .refl _

theorem SameLines.uses {e f : Ex} (h : SameLines e f) : f.uses = e.uses := by
  unfold Ex.uses
  rw [List.flatMap_def, List.flatMap_def, h.queued, h.exposing]

theorem SameLines.markLine (e : Ex) (m : Marks → Marks) : SameLines e (e.markLine m) := by
  refine ⟨rfl, ?_, fun _ h => h⟩
  unfold Ex.markLine
  cases e.exposing <;> rfl

/-- What changes neither the lines nor the positions keeps the references. -/
theorem Referred.same {s t : State} (h : Referred s) (hc : t.ce = s.ce) (hm : SameMounts s.fdm t.fdm) (hx : SameLines s.ex t.ex) :
    Referred t := by
  obtain ⟨⟨h1, h2, h3⟩, hr⟩ := h
  refine ⟨⟨hc ▸ h1, fun q hq => ?_, fun x hxx => ?_⟩, ?_⟩
  · have : q.line.used ∈ s.ex.queued.map (·.line.used) := hx.queued ▸ List.mem_map_of_mem hq
    obtain ⟨p, hp, e⟩ := List.mem_map.1 this
    exact e ▸ h2 p hp
  · have e := hx.exposing
    rw [hxx] at e
    obtain ⟨y, hy, e⟩ := Option.map_eq_some_iff.1 e.symm
    obtain ⟨hy1, hy2⟩ := h3 y hy
    exact ⟨(show y.line.used = x.line.used from e) ▸ hy1, hx.state (by simp [hy]) hy2⟩
  · have e : t.uses = s.uses := by
      unfold State.uses
      rw [hc, hx.uses]
    exact e ▸ hr.same hm

theorem Referred.touches {s t : State} (h : Referred s) {bs : List Block} (k : Touches bs s t) (hb : .ce ∉ bs ∧ .fdm ∉ bs ∧ .ex ∉ bs) :
    Referred t :=
  h.same (k.ce hb.1) (.of_touches k hb.2.1) (k.ex hb.2.2 ▸ .refl _)

/-- Lines of the exposure controller end, their references released. -/
theorem Referred.released {s t : State} (h : Referred s) {u : List (Fin 8)} (hc : t.ce = s.ce)
    (hm : SameMounts (Fdm.decRefs u s.fdm).1 t.fdm) (hq : ∀ q ∈ t.ex.queued, q ∈ s.ex.queued)
    (hx : ∀ x, t.ex.exposing = some x → s.ex.exposing = some x ∧ t.ex.state = s.ex.state)
    (hu : ∀ p, s.ex.uses.count p = u.count p + t.ex.uses.count p) : Referred t := by
  obtain ⟨⟨h1, h2, h3⟩, hr⟩ := h
  refine ⟨⟨hc ▸ h1, fun q hqt => h2 q (hq q hqt), fun x hxt => ?_⟩, ?_⟩
  · obtain ⟨hxs, hst⟩ := hx x hxt
    exact hst ▸ h3 x hxs
  · refine Fdm.Refers.same (hr.decRefs fun p => ?_) hm
    simp only [State.uses, hc, List.count_append, hu p]
    omega

/-! ### The composition engine -/

theorem readUnit_unit {d : Fdm} {fb : Nat} {w : Working} {run : Nat} {b : BufUnit} {r : ReadUnit}
    (h : readUnit d fb w run b = .ok r) : r.unit = b.unit := by
  unfold readUnit at h
  dsimp only at h
  split at h
  case h_8 =>
    split at h
    · cases h
    · cases h
      rfl
  all_goals
    cases h
    rfl

theorem Referred.readOne {s t : State} (h : Referred s) (hr : s.readOne = some t) : Referred t := by
  obtain ⟨⟨h1, h2, h3⟩, hf⟩ := h
  obtain ⟨c, hc, -, -, ⟨x, subst, -, -, rfl⟩ | ⟨b, r, -, -, hru, hd⟩⟩ := s.readOne_cases hr
  · refine ⟨⟨fun d hd => ?_, h2, h3⟩, hf.counts fun p => ?_⟩
    · cases hd
      exact h1 c hc
    · simp [State.uses, hc]
  · obtain ⟨hn, hdraw⟩ := h1 c hc
    have hunit := readUnit_unit hru
    have read (used : List (Fin 8)) (hsub : ∀ p ∈ c.used, p ∈ used) (hlast : r.unit.draws = true → r.work.drawn.pos ∈ used) :
        ∀ x ∈ c.read ++ [r], x.unit.draws = true → x.work.drawn.pos ∈ used := by
      intro x hx hxd
      obtain hx | hx := List.mem_append.1 hx
      · exact hsub _ (hdraw x hx hxd)
      · cases List.mem_singleton.1 hx
        exact hlast hxd
    obtain ⟨hnd, rfl⟩ | ⟨-, hcan, rfl⟩ := hd
    · refine ⟨⟨fun d hd => ?_, h2, h3⟩, hf.counts fun p => ?_⟩
      · cases hd
        refine ⟨hn, read _ (fun _ h => h) fun hd => ?_⟩
        rw [hunit] at hd
        simp [Composition.drawsAt, hd] at hnd
      · simp [State.uses, hc]
    · by_cases hp : r.work.drawn.pos ∈ (c.take r).used
      · rw [State.draw_held hp]
        refine ⟨⟨fun d hd => ?_, h2, h3⟩, hf.counts fun p => ?_⟩
        · cases hd
          exact ⟨hn, read _ (fun _ h => h) fun _ => hp⟩
        · simp [State.uses, hc]
      · rw [State.draw_first hp]
        rw [Composition.take_used] at hp
        obtain ⟨f, hm⟩ : ∃ f, s.fdm.pos[r.work.drawn.pos].state = .mounted f := by
          simp only [State.canDraw, hp, decide_false, Bool.false_or] at hcan
          split at hcan
          · next f hf => exact ⟨f, hf⟩
          · cases hcan
        refine ⟨⟨fun d hd => ?_, h2, h3⟩, hf.incRef hm fun p => ?_⟩
        · cases hd
          refine ⟨List.nodup_append.2 ⟨hn, by simp, ?_⟩, read _ (fun p h => List.mem_append_left _ h) fun _ => by simp⟩
          intro a ha b hb e
          exact hp (List.mem_singleton.1 hb ▸ e ▸ ha)
        · simp only [State.uses, hc, Option.map_some, Option.getD_some, Composition.take_used, List.count_append,
            List.count_singleton, beq_iff_eq]
          by_cases hq : r.work.drawn.pos = p
          · rw [if_pos hq, if_pos hq.symm]
            omega
          · rw [if_neg hq, if_neg (Ne.symm hq)]
            omega

theorem Referred.readOn {s : State} (h : Referred s) : Referred s.readOn := State.readOn_keeps (fun _ _ ha hr => ha.readOne hr) h

theorem Referred.serve {s : State} (h : Referred s) (hc : s.ce.comp = none) (c : Fin 4) (slot : Fin 16) : Referred (s.serve c slot) := by
  obtain ⟨⟨h1, h2, h3⟩, hf⟩ := h
  unfold State.serve
  refine State.readNext_keeps (fun _ _ ha hr => ha.readOne hr) ⟨⟨fun d hd => ?_, h2, h3⟩, hf.counts fun p => ?_⟩
  · cases hd
    exact ⟨List.nodup_nil, fun r hr => by cases hr⟩
  · simp [State.uses, hc, Channel.begin]

theorem buildLine_used (g : Setting) (c : Composition) (e : LineEnd) (next : Nat) (n : BitVec 16) (i : BitVec 32) :
    (buildLine g c e next n i).used = c.used := rfl

theorem Referred.deliverLine {s : State} (h : Referred s) {c : Composition} (hc : s.ce.comp = some c) (e : LineEnd) :
    Referred (s.deliverLine c e) := by
  obtain ⟨⟨h1, h2, h3⟩, hf⟩ := h
  unfold State.deliverLine
  refine Referred.touches ?_ (State.restate_touches _ _) (by decide)
  refine ⟨⟨fun d hd => (by cases hd), fun q hq => ?_, h3⟩, ?_⟩
  · obtain hq | hq := List.mem_append.1 hq
    · exact h2 q hq
    · cases List.mem_singleton.1 hq
      exact (h1 c hc).1
  · refine Fdm.Refers.same (hf.counts fun p => ?_) (Fdm.foldl_touch_same _ _)
    simp only [State.uses, State.setCh_ce, State.setCh_ex, State.post_ex, Ex.uses, hc, List.flatMap_append, List.flatMap_cons,
      List.flatMap_nil, List.append_nil, buildLine_used, Option.map_none, Option.getD_none, Option.map_some, Option.getD_some,
      List.nil_append, List.count_append]
    omega

theorem Referred.endWithout {s : State} (h : Referred s) {c d : Composition} (hc : s.ce.comp = some c) (hd : d.used = c.used) (e : Ending) :
    Referred (s.endWithout d e) := by
  obtain ⟨⟨h1, h2, h3⟩, hf⟩ := h
  have hr : (Fdm.decRefs d.used s.fdm).1.Refers s.ex.uses := hf.decRefs fun p => by simp [State.uses, hc, hd]
  have ended (u : State) (hce : u.ce.comp = none) (hm : SameMounts (Fdm.decRefs d.used s.fdm).1 u.fdm) (hx : u.ex = s.ex) : Referred u := by
    refine ⟨⟨fun _ hd => (by rw [hce] at hd; cases hd), hx ▸ h2, hx ▸ h3⟩, ?_⟩
    have hu : u.uses = s.ex.uses := by simp [State.uses, hce, hx]
    exact hu ▸ hr.same hm
  unfold State.endWithout
  dsimp only
  split
  · refine Referred.touches ?_ (State.postEither_touches _ _ _) (by decide)
    exact ended _ rfl (.refl _) rfl
  · refine Referred.touches ?_ (State.postEither_touches _ _ _) (by decide)
    exact ended _ rfl (e.request_same _ _) rfl

/-! ### Lines that leave the queue -/

theorem slot_mem_of_eq {x q : QueuedLine} {qs : List QueuedLine} (hq : q ∈ qs) (e : q.slot = x.slot) : x.slot ∈ qs.map (·.slot) :=
  List.mem_map.2 ⟨q, hq, e⟩

/-- The slots apart, a line and the lines of the other slots are the whole queue. -/
theorem perm_without_slot {q : QueuedLine} : ∀ {qs : List QueuedLine}, (qs.map (·.slot)).Nodup → q ∈ qs →
    qs.Perm (q :: qs.filter (fun x => x.slot != q.slot)) := by
  intro qs
  induction qs with
  | nil => exact fun _ h => by cases h
  | cons x qs ih =>
    intro hn hq
    obtain ⟨hx, hn⟩ := List.nodup_cons.1 hn
    obtain rfl | hq := List.mem_cons.1 hq
    · have others : qs.filter (fun x => x.slot != q.slot) = qs := by
        refine List.filter_eq_self.2 fun y hy => ?_
        simpa using fun e : y.slot = q.slot => hx (slot_mem_of_eq hy e)
      rw [List.filter_cons, others]
      simp
    · have hne : x.slot ≠ q.slot := fun e => hx (slot_mem_of_eq hq e.symm)
      rw [List.filter_cons, if_pos (by simpa using hne)]
      exact ((ih hn hq).cons x).trans (List.Perm.swap _ _ _)

theorem count_without_slot {q : QueuedLine} {qs : List QueuedLine} (hn : (qs.map (·.slot)).Nodup) (hq : q ∈ qs) (p : Fin 8) :
    (qs.flatMap (·.line.used)).count p =
      q.line.used.count p + ((qs.filter (fun x => x.slot != q.slot)).flatMap (·.line.used)).count p := by
  rw [((perm_without_slot hn hq).flatMap_right _).count_eq p, List.flatMap_cons, List.count_append]

theorem State.loseLine_fdm (l : Line) (why : LossReason) (s : State) : (s.loseLine l why).fdm = (Fdm.decRefs l.used s.fdm).1 := by
  simp [State.loseLine, State.release]

theorem Referred.loseQueued {s : State} (h : Referred s) (hs : SlotLaw s) (state : s.ex.state ≠ .calibrating) {qs : List QueuedLine}
    (hq : ∀ q ∈ qs, q ∈ s.ex.queued) (hn : (qs.map (·.slot)).Nodup) : Referred (s.loseQueued qs) := by
  induction qs generalizing s with
  | nil => exact h
  | cons q qs ih =>
    have hx := (s.loseLine_touches q.line .reach).ex (by decide)
    have hc := (s.loseLine_touches q.line .reach).ce (by decide)
    have hslots := (List.nodup_append.1 ((slotLaw_iff s).1 hs).1).1
    obtain ⟨hqn, hn⟩ := List.nodup_cons.1 hn
    unfold State.loseQueued
    dsimp only
    rw [hx]
    refine ih ?_ ?_ state ?_ hn
    · refine h.released (u := q.line.used) hc ?_ (fun x hx => (List.mem_filter.1 hx).1) (fun x hx => ⟨hx, rfl⟩) fun p => ?_
      · exact (s.loseLine_fdm q.line .reach) ▸ .refl _
      · simp only [Ex.uses, List.count_append, count_without_slot hslots (hq q List.mem_cons_self) p]
        omega
    · exact slotLaw_exKept.same (slotLaw_exKept.moves hs (.loses q.slot state)) hc rfl
    · intro x hx
      refine List.mem_filter.2 ⟨hq x (List.mem_cons_of_mem _ hx), ?_⟩
      simpa using fun e : x.slot = q.slot => hqn (slot_mem_of_eq hx e)

theorem Referred.loseChannel {s : State} (h : Referred s) (hs : SlotLaw s) (state : s.ex.state ≠ .calibrating) (c : Fin 4) :
    Referred (s.loseChannel c) := by
  have hslots := (List.nodup_append.1 ((slotLaw_iff s).1 hs).1).1
  have hl := h.loseQueued hs state (qs := s.ex.queued.filter (fun q => q.ofChannel c)) (fun q hq => (List.mem_filter.1 hq).1)
    (hslots.sublist (List.filter_sublist.map _))
  have ht := State.reachHold_touches c (s.loseQueued (s.ex.queued.filter (fun q => q.ofChannel c)))
  exact hl.same (ht.ce (by decide)) (State.reachHold_same c _) (ht.ex (by decide) ▸ .refl _)

/-- The line exposed leaves the queue with its references. -/
theorem Referred.expose {s : State} (h : Referred s) (hs : SlotLaw s) (none_exposing : s.ex.exposing = none) {q : QueuedLine}
    (hq : q ∈ s.ex.queued) : Referred (s.expose q) := by
  obtain ⟨⟨h1, h2, h3⟩, hf⟩ := h
  have hslots := (List.nodup_append.1 ((slotLaw_iff s).1 hs).1).1
  have begun : Referred { s with ex := { s.ex with
      state := .exposing, chosen := none, queued := s.ex.queued.filter (fun y => y.slot != q.slot)
      exposing := some { slot := q.slot, line := q.line, travel := (q.line.header.baseline : Int) - s.ex.film, bypass := q.bypass }
      film := q.line.header.baseline, high := max s.ex.high q.line.header.baseline } } := by
    refine ⟨⟨h1, fun x hx => h2 x (List.mem_filter.1 hx).1, fun x hx => ?_⟩, hf.counts fun p => ?_⟩
    · cases hx
      exact ⟨h2 q hq, rfl⟩
    · simp only [State.uses, Ex.uses, List.count_append, count_without_slot hslots hq p, none_exposing, Option.map_none, Option.getD_none,
        Option.map_some, Option.getD_some, List.count_nil]
      omega
  have ht := s.expose_touches q
  refine begun.same (ht.ce (by decide)) (ht.fdm (by decide) ▸ .refl _) ?_
  unfold State.expose
  dsimp only
  obtain e | ⟨m, e⟩ := State.assemble_moves
    { slot := q.slot, line := q.line, travel := (q.line.header.baseline : Int) - s.ex.film, bypass := q.bypass }
    { s with ex := { s.ex with
        state := .exposing, chosen := none, queued := s.ex.queued.filter (fun y => y.slot != q.slot)
        exposing := some { slot := q.slot, line := q.line, travel := (q.line.header.baseline : Int) - s.ex.film, bypass := q.bypass }
        film := q.line.header.baseline, high := max s.ex.high q.line.header.baseline } } <;> rw [e]
  · exact .refl _
  · exact .markLine _ m

/-- A change of the EX alone that leaves its lines as they are. -/
theorem Referred.ex {s : State} (h : Referred s) {e : Ex} (he : SameLines s.ex e) : Referred { s with ex := e } :=
  h.same rfl (.refl _) he

/-- With no EXPOSING line the EX's state may change. -/
theorem SameLines.state_free {e f : Ex} (hq : f.queued = e.queued) (he : e.exposing = none) (hf : f.exposing = none) : SameLines e f :=
  ⟨by rw [hq], by rw [he, hf], fun h => absurd he h⟩

theorem Ex.passOver_sameLines (e : Ex) (o q : QueuedLine) : SameLines e (e.passOver o q) := by
  unfold Ex.passOver
  split
  · exact .refl e
  · refine ⟨?_, rfl, fun _ h => h⟩
    rw [List.map_map]
    refine List.map_congr_left fun x _ => ?_
    simp only [Function.comp_apply]
    split <;> rfl

/-- Outside EXPOSING no line is EXPOSING. -/
theorem Referred.none_exposing {s : State} (h : Referred s) (state : s.ex.state ≠ .exposing) : s.ex.exposing = none := by
  cases hx : s.ex.exposing with
  | none => rfl
  | some x => exact absurd (h.used.2.2 x hx).2 state

theorem Referred.take {s : State} (h : Referred s) (hs : SlotLaw s) (state : s.ex.state = .idle) {q : QueuedLine}
    (hq : q ∈ s.ex.queued) : Referred (s.take q) := by
  have hnone := h.none_exposing (by rw [state]; decide)
  unfold State.take
  split
  · exact h.expose hs hnone hq
  · split
    · exact Referred.expose (s := { s with ex := { s.ex with deferral := s.ex.deferral + 1 } }) (h.ex ⟨rfl, rfl, fun _ h => h⟩)
        hs hnone hq
    · exact h.same rfl (.refl _) (.state_free rfl hnone hnone)

theorem Referred.arbitrate {s : State} (h : Referred s) (hs : SlotLaw s) (state : s.ex.state = .idle) (n : Nat) :
    Referred (s.arbitrate n) := by
  induction n generalizing s with
  | zero => exact h
  | succ n ih =>
    have hst : s.ex.state ≠ .calibrating := by rw [state]; decide
    unfold State.arbitrate
    split
    · exact h
    · next o rest hq =>
      split
      · obtain ⟨hm, hstate⟩ := State.loseChannel_moves o.line.header.channel hst
        exact ih (h.loseChannel hs hst _) (slotLaw_exKept.along hs hm) (hstate.trans state)
      · next hr =>
        obtain ⟨hmem, -, hbelow⟩ := Ex.choice_spec (e := s.ex) (o := o) (by simp [hq]) (by simpa using hr)
        have hpass := slotLaw_exKept.moves hs (.passes _ hq hst (hbelow.imp_left (congrArg QueuedLine.slot)))
        exact Referred.take (h.ex (s.ex.passOver_sameLines o _)) hpass ((s.ex.passOver_state o _).trans state) (Ex.mem_passOver hmem)

/-! ### DONE and faults -/

theorem Referred.exposed {s : State} (h : Referred s) {x : ExposingLine} (hx : s.ex.exposing = some x) : Referred (s.exposed x) := by
  have hr := State.release_touches x.line.used
    (State.post (.lineExposed x.line.header x.travel s.ex.pageCount) { s with ex := { s.ex with timer := none } })
  have hrest (e : Ex) : e.rest.queued = e.queued ∧ e.rest.exposing = e.exposing := by
    unfold Ex.rest
    split <;> exact ⟨rfl, rfl⟩
  unfold State.exposed
  dsimp only
  rw [hr.ex (by decide)]
  refine h.released (u := x.line.used) (hr.ce (by decide)) ?_ (fun q hq => ?_) (fun y hy => ?_) fun p => ?_
  · simp only [State.release, State.postAll_fdm]
    exact .refl _
  · rw [(hrest _).1] at hq
    exact hq
  · rw [(hrest _).2] at hy
    cases hy
  · simp only [Ex.uses, (hrest _).1, (hrest _).2, hx, Option.map_some, Option.getD_some, Option.map_none, Option.getD_none,
      List.append_nil, List.count_append, State.post_ex]
    omega

theorem Referred.calibrated {s : State} (h : Referred s) (hs : SlotLaw s) (state : s.ex.state = .calibrating) : Referred s.calibrated := by
  have hnone := h.none_exposing (by rw [state]; decide)
  unfold State.calibrated
  dsimp only
  split
  · exact h.same rfl (.refl _) (.state_free rfl hnone hnone)
  · split
    · exact h.same rfl (.refl _) (.state_free rfl hnone hnone)
    · split
      · next q hq =>
        refine Referred.expose (s := { s with ex := { s.ex with timer := none, counter := 0, deferral := 0 } })
          (h.ex ⟨rfl, rfl, fun _ h => h⟩) hs hnone (Ex.chosenLine_mem hq).1
      · exact h.same rfl (.refl _) (.state_free rfl hnone hnone)

theorem Ex.cutDone_lines (e : Ex) : e.cutDone.queued = e.queued ∧ e.cutDone.exposing = e.exposing := by
  unfold Ex.cutDone Ex.rest
  split <;> exact ⟨rfl, rfl⟩

theorem Referred.takeDone {s : State} (h : Referred s) (hs : SlotLaw s) : Referred s.takeDone := by
  unfold State.takeDone
  split
  · exact h
  · split
    · next hx => exact h.exposed hx
    · next hst => exact h.calibrated hs hst
    · next hst =>
      have hnone := h.none_exposing (by rw [hst]; decide)
      exact h.ex (.state_free s.ex.cutDone_lines.1 hnone (s.ex.cutDone_lines.2.trans hnone))
    · exact h

theorem Referred.enterFaulted {s : State} (h : Referred s) (cause : FaultCause) (why : LossReason) : Referred (s.enterFaulted cause why) := by
  have ht := s.enterFaulted_touches cause why
  have hx := s.enterFaulted_ex cause why
  have hf : (s.enterFaulted cause why).fdm = (s.stopPort.loseExposing why).fdm := (State.fetchesIdle_touches _).fdm (by decide)
  have hp := s.stopPort_touches
  have hlose := State.loseExposing.eq_1 why s.stopPort
  rw [hp.ex (by decide)] at hlose
  by_cases hst : s.ex.state = .exposing
  · rw [if_pos hst] at hx
    cases hl : s.ex.exposing with
    | some x =>
      refine h.released (u := x.line.used) (ht.ce (by decide)) ?_ (fun q hq => ?_) (fun y hy => ?_) fun p => ?_
      · rw [hf, hlose]
        simp only [hst, hl]
        rw [State.loseLine_fdm, hp.fdm (by decide)]
        exact .refl _
      · rw [hx] at hq
        exact hq
      · rw [hx] at hy
        cases hy
      · rw [hx]
        simp only [Ex.uses, Ex.faulted, hl, Option.map_some, Option.getD_some, Option.map_none, Option.getD_none, List.append_nil,
          List.count_append]
        omega
    | none =>
      refine h.same (ht.ce (by decide)) ?_ (hx ▸ .state_free rfl hl rfl)
      rw [hf, hlose]
      simp only [hst, hl]
      exact .of_touches hp (by decide)
  · rw [if_neg hst] at hx
    have hnone := h.none_exposing hst
    refine h.same (ht.ce (by decide)) ?_ (hx ▸ .state_free rfl hnone hnone)
    rw [hf, hlose]
    split
    · next h1 _ => exact absurd h1 hst
    · exact .of_touches hp (by decide)

theorem Referred.takeFault {s : State} (h : Referred s) (cause : FaultCause) : Referred (s.takeFault cause) := by
  unfold State.takeFault
  split
  · exact h.ex ⟨rfl, rfl, fun _ h => h⟩
  · exact h.enterFaulted cause .fault

/-- The slots apart, and the references. -/
def SlotReferred (s : State) : Prop := SlotLaw s ∧ Referred s

theorem SlotReferred.returnByte {s : State} (h : SlotReferred s) (b : Byte) : SlotReferred (s.returnByte b) :=
  State.returnByte_keeps h (fun _ _ h => ⟨h.1, h.2.same rfl (.refl _) (.refl _)⟩)
    (fun u c h => ⟨slotLaw_exKept.along h.1 (u.takeFault_moves c), h.2.takeFault c⟩)
    (fun u h => ⟨slotLaw_exKept.along h.1 u.takeDone_moves, h.2.takeDone h.1⟩) b

/-! ### Orders -/

theorem State.recordSent_ex (r : OutRecord) (s : State) : ∃ tm, (s.recordSent r).ex = { s.ex with timer := tm } := by
  have next : ((State.pumpSa { s with sa := s.sa.sentRecord }).send).ex = { s.ex with timer := s.ex.timer } :=
    ((State.send_touches _).ex (by decide)).trans ((State.pumpSa_touches _).ex (by decide))
  cases r with
  | lineBegin => exact ⟨_, s.send_touches.ex (by decide)⟩
  | strike => exact ⟨_, next⟩
  | extend => exact ⟨_, next⟩
  | lineEnd => exact ⟨_, rfl⟩
  | calibrate => exact ⟨_, rfl⟩
  | cut => exact ⟨_, rfl⟩

theorem Referred.recordSent {s : State} (h : Referred s) (r : OutRecord) : Referred (s.recordSent r) := by
  have ht := s.recordSent_touches r
  obtain ⟨tm, he⟩ := s.recordSent_ex r
  exact h.same (ht.ce (by decide)) (.of_touches ht (by decide)) (he ▸ ⟨rfl, rfl, fun _ h => h⟩)

theorem Referred.deliver {s : State} (h : Referred s) (r : FetchReq) (data : Bytes) : Referred (s.deliver r data) := by
  have ht := s.deliver_touches r data
  have hx : SameLines s.ex (s.deliver r data).ex := by
    unfold State.deliver
    split
    · exact (s.mountPage_touches r data).ex (by decide) ▸ .refl _
    · obtain e | ⟨m, e⟩ := s.masterArrived_ex r data <;> rw [e]
      · exact .refl _
      · exact .markLine _ m
    · exact (s.sequencerRead_touches data).ex (by decide) ▸ .refl _
    · exact .refl _
  have hc := ht.ce (by decide)
  have lines : Referred { s with ex := (s.deliver r data).ex } := h.ex hx
  have e : (s.deliver r data).uses = s.uses := by
    unfold State.uses
    rw [hc, hx.uses]
  refine ⟨⟨?_, lines.used.2.1, lines.used.2.2⟩, e ▸ State.deliver_refers h.refers r data⟩
  rw [hc]
  exact lines.used.1

theorem count_withoutLines (e : Ex) (c : Fin 4) (p : Fin 8) :
    e.uses.count p = (e.linesUsed c).count p + (e.withoutLines c).uses.count p := by
  have hp := ((List.filter_append_perm (fun q : QueuedLine => q.ofChannel c) e.queued).flatMap_right (·.line.used)).count_eq p
  rw [List.flatMap_append, List.count_append] at hp
  simp only [Ex.uses, Ex.linesUsed, Ex.withoutLines, List.count_append]
  omega

theorem Referred.discardOf {s : State} (h : Referred s) (c : Fin 4) : Referred (s.discardOf c) := by
  unfold State.discardOf
  split
  · next hc =>
    split
    · exact h.endWithout hc rfl _
    · exact h
  · exact h

theorem Referred.actCancel {s : State} (h : Referred s) (target : Byte) : Referred (actCancel target s).1 := by
  unfold Machine.actCancel
  split
  · exact h
  · next c _ =>
    dsimp only
    refine Referred.discardOf ?_ c
    have dropped : Referred { s with fdm := if s.ch[c].state = .mountWait then s.fdm.dropWaiter c else s.fdm } := by
      refine h.same rfl ?_ (.refl _)
      dsimp only
      split
      · exact ⟨rfl, rfl⟩
      · exact .refl _
    refine dropped.released (u := s.ex.linesUsed c) ?_ ?_ (fun q hq => ?_) (fun x hx => ?_) fun p => ?_
    · rw [(State.release_touches _ _).ce (by decide)]
      rfl
    · simp only [State.release, State.postAll_fdm]
      exact .refl _
    · rw [(State.release_touches _ _).ex (by decide)] at hq
      exact (List.mem_filter.1 hq).1
    · rw [(State.release_touches _ _).ex (by decide)] at hx ⊢
      exact ⟨hx, rfl⟩
    · rw [(State.release_touches _ _).ex (by decide)]
      exact count_withoutLines s.ex c p

theorem Referred.actFilmCut {s : State} (h : Referred s) : Referred (actFilmCut s).1 := by
  unfold Machine.actFilmCut
  split
  · exact h
  · next hc =>
    have hnone : s.ex.exposing = none := by
      simp only [State.canCut, Bool.not_eq_false, Bool.and_eq_true, Option.isNone_iff_eq_none] at hc
      exact hc.1.1.2
    dsimp only
    split
    · exact h.same rfl (.refl _) (.state_free rfl hnone hnone)
    · exact h.same rfl (.refl _) (.state_free rfl hnone hnone)

theorem Referred.actExposeSet {s : State} (h : Referred s) (fs : List FieldEntry) : Referred (actExposeSet fs s).1 := by
  unfold Machine.actExposeSet
  split
  · exact h
  · split
    · exact h
    · exact h.ex ⟨rfl, rfl, fun _ h => h⟩

theorem Referred.actExposeHold {s : State} (h : Referred s) : Referred (actExposeHold s).1 := by
  have held (hst : s.ex.state ≠ .exposing) : Referred { s with ex := { s.ex with state := .held } } :=
    h.ex (.state_free rfl (h.none_exposing hst) (h.none_exposing hst))
  unfold Machine.actExposeHold
  split
  · next hst => exact held (by rw [hst]; decide)
  · next hst => exact held (by rw [hst]; decide)
  · exact h
  · exact h.ex ⟨rfl, rfl, fun _ h => h⟩

theorem Referred.actExposeResume {s : State} (h : Referred s) : Referred (actExposeResume s).1 := by
  unfold Machine.actExposeResume
  dsimp only
  split
  · next hst =>
    have hnone := h.none_exposing (by rw [hst]; decide)
    exact h.ex (.state_free rfl hnone hnone)
  · next hst =>
    have hnone := h.none_exposing (by rw [hst]; decide)
    exact h.ex (.state_free rfl hnone hnone)
  · exact h
  · exact h
  · split
    · exact h.ex ⟨rfl, rfl, fun _ h => h⟩
    · exact h

/-- What changes the mount unit alone, and not its positions' references, keeps the references. -/
theorem Referred.fdm {s t : State} (h : Referred s) (hc : t.ce = s.ce) (hx : t.ex = s.ex) (hf : t.fdm.Refers s.uses) : Referred t := by
  refine ⟨?_, ?_⟩
  · have := h.used
    unfold UsedLaw at *
    rwa [hc, hx]
  · have e : t.uses = s.uses := by simp [State.uses, hc, hx]
    rwa [e]

theorem Referred.actFaceDefine {s : State} (h : Referred s) (f : Byte) (b n : Word) : Referred (actFaceDefine f b n s).1 := by
  unfold Machine.actFaceDefine
  split
  · exact h
  · exact h.same rfl ⟨rfl, rfl⟩ (.refl _)

theorem Referred.actFaceWithdraw {s : State} (h : Referred s) (f : Byte) : Referred (actFaceWithdraw f s).1 := by
  unfold Machine.actFaceWithdraw
  split
  · exact h
  · split
    · exact h
    · dsimp only
      split
      · exact h
      · split
        · exact h.same rfl ⟨rfl, rfl⟩ (.refl _)
        · next hu =>
          have ht := s.retireNow_touches (Fin.ofNat 128 f.toNat)
          exact h.fdm (ht.ce (by decide)) (ht.ex (by decide)) (State.retireNow_refers h.refers (by simpa using hu))

theorem actMount_same (f : Byte) (s : State) : SameMounts s.fdm (actMount f s).1.fdm := by
  unfold actMount
  split
  · exact .refl _
  · dsimp only
    split
    · exact .refl _
    · split
      · exact .refl _
      · split
        · exact ⟨rfl, rfl⟩
        · split
          · exact .refl _
          · split
            · exact ⟨rfl, rfl⟩
            · split
              · exact .refl _
              · exact ⟨rfl, rfl⟩

/-! ### Every step -/

theorem slotReferred_kept : Kept [.fdm, .ce, .ex] SlotReferred where
  reads bs s t h hb hs := by
    refine ⟨slotLaw_exKept.reads bs s t h (fun b hm => hb b (by simp_all)) hs.1, ?_⟩
    exact hs.2.touches h ⟨hb _ (by decide), hb _ (by decide), hb _ (by decide)⟩
  link := by decide
  act tag target o s hb hs := by
    obtain ⟨hs, h⟩ := hs
    refine ⟨?_, ?_⟩
    · by_cases hx : ∃ b ∈ [Block.ce, .ex], b ∈ o.blocks
      · exact slotLaw_exKept.kept.act tag target o s hx hs
      · exact slotLaw_exKept.reads _ _ _ (o.act_touches _ _ _) (fun b m e => hx ⟨b, m, e⟩) hs
    cases o with
    | cancel => exact h.actCancel target
    | faceDefine f b n => exact h.actFaceDefine f b n
    | faceWithdraw f => exact h.actFaceWithdraw f
    | mapLock => exact h.same rfl ⟨rfl, rfl⟩ (.refl _)
    | mount f =>
      have ht := actMount_touches f s
      exact h.same (ht.ce (by decide)) (actMount_same f s) (ht.ex (by decide) ▸ .refl _)
    | filmCut => exact h.actFilmCut
    | exposeSet fs => exact h.actExposeSet fs
    | exposeHold => exact h.actExposeHold
    | exposeResume => exact h.actExposeResume
    | _ => simp [Order.blocks] at hb
  event i s t hi hb hs h := by
    refine ⟨?_, ?_⟩
    · by_cases hx : ∃ b ∈ [Block.ce, .ex], b ∈ blocksOf i
      · exact slotLaw_exKept.kept.event i s t hi hx hs.1 h
      · exact slotLaw_exKept.reads _ _ _ (exec_touches h) (fun b m e => hx ⟨b, m, e⟩) hs.1
    have settled {u : State} (hu : Referred u) : Referred u.settle := hu.touches u.settle_touches (by decide)
    obtain ⟨hs, hr⟩ := hs
    cases i with
    | arbiterChoice =>
      obtain rfl | ⟨c, slot, hc, -, -, rfl⟩ := execArbiterChoice_cases h
      · exact settled hr
      · exact settled (hr.serve hc c slot)
    | lineDelivery =>
      obtain rfl | ⟨c, hc, rfl | ⟨e, -, rfl⟩⟩ := execLineDelivery_cases h
      · exact settled hr.readOn
      · exact settled (hr.readOn.endWithout hc rfl _)
      · exact settled (hr.readOn.deliverLine hc e)
    | compositionAbandon =>
      obtain rfl | ⟨c, e, hc, rfl⟩ := execCompositionAbandon_cases h
      · exact settled hr.readOn
      · exact settled (hr.readOn.endWithout hc rfl e)
    | mountLoadBegin =>
      obtain rfl | ⟨q, rest, p, hl, -, hp, rfl⟩ := execMountLoadBegin_cases h
      · exact settled hr
      · exact settled (hr.fdm rfl rfl (State.beginLoad_refers hr.refers q hl hp))
    | fetchRequestEntry =>
      obtain rfl | ⟨r, rest, -, -, rfl⟩ := execFetchRequestEntry_cases h
      · exact settled hr
      · have ht := State.entered_touches r.requester { s with fs := s.fs.enter r rest }
        refine settled (hr.same (ht.ce (by decide)) ?_ (.of_eq (ht.ex (by decide))))
        exact State.entered_same r.requester { s with fs := s.fs.enter r rest }
    | transferComplete =>
      obtain rfl | ⟨r, wanted, -, rfl⟩ := execTransferComplete_cases h
      · exact settled hr
      · have ht : Referred (s.transferred r) := hr.same rfl (.refl _) (.refl _)
        refine settled (Referred.touches ?_ (State.idleReport_touches _ _) (by decide))
        split
        · exact ht.deliver r _
        · exact ht
    | filmArbiter =>
      obtain rfl | ⟨hi, rfl⟩ := execFilmArbiter_cases h
      · exact settled hr
      · exact settled (hr.arbitrate hs hi _)
    | recordSent =>
      obtain rfl | ⟨r, rest, -, rfl⟩ := execRecordSent_cases h
      · exact settled hr
      · exact settled (Referred.recordSent (s := { s with sa := { s.sa with lane := rest, acked := 0 } })
          (hr.same rfl (.refl _) (.refl _)) r)
    | unitDone =>
      cases h
      exact settled (SlotReferred.returnByte ⟨hs, hr⟩ _).2
    | unitFault b =>
      cases h
      exact settled ((SlotReferred.returnByte ⟨hs, hr⟩ _).returnByte _).2
    | exposureTimeout =>
      obtain rfl | ⟨d, -, rfl⟩ := execExposureTimeout_cases h
      · exact settled hr
      · exact settled (Referred.enterFaulted (s := { s with time := max s.time d }) (hr.same rfl (.refl _) (.refl _)) _ _)
    | unknownReturnByte b =>
      cases h
      exact settled (SlotReferred.returnByte ⟨hs, hr⟩ _).2
    | _ => simp_all [blocksOf, isEvent, orderOf]
  reset record phase s _ := by
    refine ⟨slotLaw_exKept.fresh rfl rfl, ⟨fun _ h => (by cases h), fun _ h => (by cases h), fun _ h => (by cases h)⟩, ?_, ?_, ?_⟩
    · intro p
      simp [State.resetTo, State.uses, Ex.uses]
    · intro p hp
      simp [State.resetTo] at hp
    · exact fun _ h => by cases h
  engine _ s t hs h := ⟨slotLaw_exKept.readOne hs.1 h, hs.2.readOne h⟩
  acks hb := absurd hb (by decide)

/-- Settles O60. -/
theorem stepKeepsReferenceLaw : Obligations.StepKeepsReferenceLaw := by
  intro s t hs hu hr h
  have hs' : SlotReferred s := ⟨hs, (referred_iff s).2 ⟨hu, hr⟩⟩
  exact (referred_iff t).1 (slotReferred_kept.step hs' h).2

end Sys2Proof.Machine
end


section
/-! PROOF. The store sequencer: every step keeps its operations to their states and bounds (R121 to R127), and no step begins to
program or erase a protected page (R120). -/

namespace Sys2Proof.Machine

/-! ### Sequencer operations -/

/-- R130: a page read leaves no check alone, ends the check, or goes on to the next page. -/
theorem State.pageRead_cases (data : Bytes) (s : State) :
    s.pageRead data = s ∨ (∃ found, s.pageRead data = s.endCheck found) ∨
      ∃ c n, s.sq.check = some c ∧
        s.pageRead data = { s with sq := { s.sq with check := some { c with next := n } }, fs := s.fs.request (pageFetch n) } := by
  unfold State.pageRead
  split
  · exact .inl rfl
  · next c hc =>
    split
    · exact .inr (.inl ⟨_, rfl⟩)
    · by_cases he : c.next = (if c.down then c.first else c.last)
      · rw [if_pos he]
        exact .inr (.inl ⟨_, rfl⟩)
      · rw [if_neg he]
        exact .inr (.inr ⟨c, _, hc, rfl⟩)

theorem State.endCheck_sq (found : Option (Nat × Nat × Byte)) (s : State) :
    (s.endCheck found).sq = { s.sq with state := .idle, check := none } := rfl

theorem State.blockErased_sq (b : Nat) (s : State) :
    (s.blockErased b).sq = { s.sq with
      state := .idle, eraseBlock := none, eraseSent := false, suspendAwaited := false,
      interrupted := if s.sq.interrupted = some b then none else s.sq.interrupted } := rfl

theorem State.erasePaused_sq (b : Nat) (s : State) :
    (s.erasePaused b).sq = { s.sq with state := .eraseSuspended, suspendAwaited := false } := rfl

theorem State.erasePaused_fs (b : Nat) (s : State) : (s.erasePaused b).fs = s.fs.releaseAll := by
  unfold State.erasePaused
  with_reducible rfl

theorem State.blockErased_fs (b : Nat) (s : State) : (s.blockErased b).fs = s.fs.releaseAll := by
  unfold State.blockErased
  rw [State.post_fs]

/-! ### The sequencer's law -/

/-- R121, R123, R126, R127: the law of the sequencer's record. -/
structure Sq.Lawful (q : Sq) : Prop where
  two : q.buffer.length ≤ 2
  lines : q.state ≠ .programming → q.buffer = []
  block : q.state ≠ .erasing → q.state ≠ .eraseSuspended → q.eraseBlock = none
  count : q.suspendCount ≤ q.eraseLimit

theorem sequencerLaw_iff (s : State) : SequencerLaw s ↔ s.sq.Lawful :=
  ⟨fun ⟨h1, h2, h3, h4⟩ => ⟨h1, h2, h3, h4⟩, fun ⟨h1, h2, h3, h4⟩ => ⟨h1, h2, h3, h4⟩⟩

/-- In a state that is neither PROGRAMMING nor of an erase. -/
theorem Sq.Lawful.rest {q : Sq} (h : q.Lawful) (hs : q.state = .idle ∨ q.state = .locked ∨ q.state = .checking) :
    q.buffer = [] ∧ q.eraseBlock = none := by
  refine ⟨h.lines ?_, h.block ?_ ?_⟩ <;> rcases hs with hs | hs | hs <;> rw [hs] <;> decide

/-- A record without lines and without an erase block is lawful in any state. -/
theorem Sq.Lawful.empty {q r : Sq} (h : q.Lawful) (hb : r.buffer = []) (he : r.eraseBlock = none) (hc : r.suspendCount = q.suspendCount)
    (hl : r.eraseLimit = q.eraseLimit) : r.Lawful :=
  ⟨(by rw [hb]; decide), fun _ => hb, fun _ _ => he, (by rw [hc, hl]; exact h.count)⟩

/-- Other fields do not matter. -/
theorem Sq.Lawful.like {q r : Sq} (h : q.Lawful) (hs : r.state = q.state) (hb : r.buffer = q.buffer) (he : r.eraseBlock = q.eraseBlock)
    (hc : r.suspendCount = q.suspendCount) (hl : r.eraseLimit = q.eraseLimit) : r.Lawful where
  two := by rw [hb]; exact h.two
  lines := by rw [hs, hb]; exact h.lines
  block := by rw [hs, he]; exact h.block
  count := by rw [hc, hl]; exact h.count

theorem Sq.Lawful.sendWaiting {q : Sq} (h : q.Lawful) : q.sendWaiting.Lawful := by
  unfold Sq.sendWaiting
  split
  · exact h.like rfl rfl rfl rfl rfl
  · split
    · exact h.like rfl rfl rfl rfl rfl
    · exact h
  · exact h

/-- An erase goes on in either of its states. -/
theorem Sq.Lawful.erase {q r : Sq} (h : q.Lawful) (hq : q.state ≠ .programming) (hs : r.state = .erasing ∨ r.state = .eraseSuspended)
    (hb : r.buffer = q.buffer) (hc : r.suspendCount = q.suspendCount) (hl : r.eraseLimit = q.eraseLimit) : r.Lawful where
  two := by rw [hb]; exact h.two
  lines _ := by rw [hb]; exact h.lines hq
  block h1 h2 := by rcases hs with hs | hs <;> contradiction
  count := by rw [hc, hl]; exact h.count

theorem State.fetchesIdle_lawful {s : State} (h : s.sq.Lawful) : s.fetchesIdle.sq.Lawful := by
  unfold State.fetchesIdle
  split
  · next hi => exact h.erase (by rw [hi.2]; decide) (.inl rfl) rfl rfl rfl
  · exact h

theorem State.idleReport_lawful {s : State} (h : s.sq.Lawful) (wasIdle : Bool) : (s.idleReport wasIdle).sq.Lawful := by
  unfold State.idleReport
  split
  · next hi =>
    dsimp only
    split
    · exact h.erase (by rw [hi.2.1]; decide) (.inl rfl) rfl rfl rfl
    · exact h
  · exact State.fetchesIdle_lawful h

theorem State.fetchWaiting_lawful {s : State} (h : s.sq.Lawful) : s.fetchWaiting.sq.Lawful := by
  unfold State.fetchWaiting
  dsimp only
  split
  · next hi =>
    obtain ⟨-, -, -, hne⟩ := hi
    have hc := h.count
    exact ⟨h.two, h.lines, h.block, by dsimp only; omega⟩
  · exact h

theorem State.failLine_lawful {s : State} (h : s.sq.Lawful) (hs : s.sq.state = .programming) (l : ProgLine) (k : ErrorKinds) :
    (s.failLine l k).sq.Lawful :=
  h.empty rfl (h.block (by rw [hs]; decide) (by rw [hs]; decide)) rfl rfl

theorem State.sequencerRead_lawful {s : State} (h : s.sq.Lawful) (data : Bytes) : (s.sequencerRead data).sq.Lawful := by
  unfold State.sequencerRead
  split
  · next hs =>
    unfold State.lineRead
    split
    · exact h
    · split
      · exact State.failLine_lawful h hs _ _
      · split
        · exact State.failLine_lawful h hs _ _
        · exact h.like rfl rfl rfl rfl rfl
  · next hs =>
    obtain ⟨hb, he⟩ := h.rest (.inr (.inr hs))
    obtain e | ⟨found, e⟩ | ⟨c, n, -, e⟩ := s.pageRead_cases data <;> rw [e]
    · exact h
    · exact h.empty hb he rfl rfl
    · exact h.like rfl rfl rfl rfl rfl
  · exact h

theorem State.deliver_lawful {s : State} (h : s.sq.Lawful) (r : FetchReq) (data : Bytes) : (s.deliver r data).sq.Lawful := by
  unfold State.deliver
  split
  · rw [(s.mountPage_touches r data).sq (by decide)]
    exact h
  · rw [(s.masterArrived_touches r data).sq (by decide)]
    exact h
  · exact State.sequencerRead_lawful h data
  · exact h

theorem State.enterFaulted_lawful {s : State} (h : s.sq.Lawful) (cause : FaultCause) (why : LossReason) :
    (s.enterFaulted cause why).sq.Lawful := by
  have hl : (s.stopPort.loseExposing why).sq = s.sq :=
    ((State.loseExposing_touches why _).sq (by decide)).trans (s.stopPort_touches.sq (by decide))
  exact State.fetchesIdle_lawful (hl.symm ▸ h)

theorem State.takeFault_lawful {s : State} (h : s.sq.Lawful) (cause : FaultCause) : (s.takeFault cause).sq.Lawful := by
  unfold State.takeFault
  split
  · exact h
  · exact State.enterFaulted_lawful h cause .fault

theorem State.takeDone_sq (s : State) : s.takeDone.sq = s.sq := s.takeDone_touches.sq (by decide)

theorem State.returnByte_lawful {s : State} (h : s.sq.Lawful) (b : Byte) : (s.returnByte b).sq.Lawful :=
  State.returnByte_keeps (P := fun u => u.sq.Lawful) h (fun _ _ h => h) (fun _ c h => State.takeFault_lawful h c)
    (fun u h => u.takeDone_sq.symm ▸ h) b

/-! ### Orders to the sequencer -/

theorem actStoreWrite_lawful {s : State} (h : s.sq.Lawful) (page offset : Word) (data : Bytes) :
    (actStoreWrite page offset data s).1.sq.Lawful := by
  unfold actStoreWrite
  dsimp only
  split
  · exact h
  · exact h
  · exact h
  · exact h
  · next hs =>
    obtain ⟨hb, he⟩ := h.rest (.inl hs)
    split
    · exact h.empty hb he rfl rfl
    · exact ⟨Nat.le_succ 1, fun hp => absurd rfl hp, fun _ _ => he, h.count⟩
  · next hs =>
    have he := h.block (by rw [hs]; decide) (by rw [hs]; decide)
    split
    · exact h
    · split
      · refine ⟨?_, fun hp => absurd hs hp, fun _ _ => he, h.count⟩
        simp
      · split
        · exact h
        · refine ⟨?_, fun hp => absurd hs hp, fun _ _ => he, h.count⟩
          simp
          omega

theorem actStoreErase_lawful {s : State} (h : s.sq.Lawful) (block : Byte) : (actStoreErase block s).1.sq.Lawful := by
  unfold actStoreErase
  split
  · exact h
  · next hs =>
    obtain ⟨hb, he⟩ := h.rest (.inl hs)
    split
    · exact h.empty hb he rfl rfl
    · refine ⟨?_, fun _ => hb, fun h1 _ => absurd rfl h1, Nat.zero_le _⟩
      simp [Sq.record, hb]
  · exact h

theorem actStoreBlank_lawful {s : State} (h : s.sq.Lawful) (first last : Word) (direction : Byte) :
    (actStoreBlank first last direction s).1.sq.Lawful := by
  unfold actStoreBlank
  split
  · exact h
  · next hs =>
    obtain ⟨hb, he⟩ := h.rest (.inl hs)
    split
    · exact h.empty hb he rfl rfl
    · exact h.empty hb he rfl rfl
  · exact h

theorem actStoreMode_lawful {s : State} (h : s.sq.Lawful) (mode limit : Byte) : (actStoreMode mode limit s).1.sq.Lawful := by
  unfold actStoreMode
  split
  · exact h.like rfl rfl rfl rfl rfl
  · exact h

theorem actStoreClear_lawful {s : State} (h : s.sq.Lawful) : (actStoreClear s).1.sq.Lawful := by
  unfold actStoreClear
  split
  · next hs =>
    obtain ⟨hb, he⟩ := h.rest (by tauto)
    exact h.empty hb he rfl rfl
  · exact h

theorem Sq.Lawful.aborted {q : Sq} (h : q.Lawful) : q.aborted.Lawful := by
  have hb (hp : q.state ≠ .programming) : q.buffer = [] := h.lines hp
  unfold Sq.aborted
  dsimp only
  split
  · next hs => exact h.empty rfl (h.block (by rw [hs]; decide) (by rw [hs]; decide)) rfl rfl
  · next hs => exact h.empty (hb (by rw [hs]; decide)) rfl rfl rfl
  · next hs => exact h.empty (hb (by rw [hs]; decide)) rfl rfl rfl
  · next hs => exact h.empty (hb (by rw [hs]; decide)) (h.block (by rw [hs]; decide) (by rw [hs]; decide)) rfl rfl
  · next h1 h2 h3 _ => exact h.empty (hb h1) (h.block h2 h3) rfl rfl

theorem actStoreWindow_lawful {s : State} (h : s.sq.Lawful) (first last : Byte) : (actStoreWindow first last s).1.sq.Lawful := by
  unfold actStoreWindow
  split
  · exact h
  · split
    · exact h.like rfl rfl rfl rfl rfl
    · split
      · exact h
      · exact h.like rfl rfl rfl rfl rfl

theorem sequencerLaw_kept : Kept [.sq] (fun s => s.sq.Lawful) where
  reads bs s t h hb hs := by
    change t.sq.Lawful
    rw [h.sq (hb _ (by decide))]
    exact hs
  link := by decide
  act tag target o s hb hs := by
    cases o with
    | storeWrite p off d => exact actStoreWrite_lawful hs p off d
    | storeErase b => exact actStoreErase_lawful hs b
    | storeBlank f l d => exact actStoreBlank_lawful hs f l d
    | storeMode m l => exact actStoreMode_lawful hs m l
    | storeClear => exact actStoreClear_lawful hs
    | storeAbort => exact hs.aborted
    | storeWindow f l => exact actStoreWindow_lawful hs f l
    | _ => simp [Order.blocks] at hb
  event i s t hi hb hs h := by
    cases i with
    | fetchChoice =>
      obtain rfl | ⟨r, -, -, rfl⟩ | ⟨-, -, rfl⟩ := execFetchChoice_cases h
      · exact hs
      · exact hs
      · exact State.fetchWaiting_lawful hs
    | transferComplete =>
      obtain rfl | ⟨r, wanted, -, rfl⟩ := execTransferComplete_cases h
      · exact hs
      · have ht : (s.transferred r).sq.Lawful := hs.sendWaiting
        refine State.idleReport_lawful ?_ _
        split
        · exact State.deliver_lawful ht r _
        · exact ht
    | programLineDone =>
      obtain rfl | ⟨l, rest, hp, -, hb, ⟨rfl, rfl⟩ | ⟨m, more, rfl, rfl⟩⟩ := execProgramLineDone_cases h
      · exact hs
      · exact hs.empty rfl (hs.block (by rw [hp]; decide) (by rw [hp]; decide)) rfl rfl
      · have h2 := hs.two
        rw [hb] at h2
        exact ⟨Nat.le_of_succ_le h2, fun hn => absurd hp hn, hs.block, hs.count⟩
    | erasePaused =>
      obtain rfl | ⟨b, hp, -, -, rfl⟩ := execErasePaused_cases h
      · exact hs
      · rw [State.settle_sq]
        refine State.fetchesIdle_lawful ?_
        rw [State.erasePaused_sq]
        exact hs.erase (by rw [hp]; decide) (.inr rfl) rfl rfl rfl
    | eraseDone =>
      obtain rfl | ⟨b, hp, -, -, rfl⟩ := execEraseDone_cases h
      · exact hs
      · rw [State.settle_sq, State.blockErased_sq]
        exact hs.empty (hs.lines (by rw [hp]; decide)) rfl rfl rfl
    | unitDone =>
      cases h
      exact State.returnByte_lawful hs _
    | unitFault b =>
      cases h
      exact State.returnByte_lawful (State.returnByte_lawful hs _) _
    | exposureTimeout =>
      obtain rfl | ⟨d, -, rfl⟩ := execExposureTimeout_cases h
      · exact hs
      · exact State.enterFaulted_lawful (s := { s with time := max s.time d }) hs _ _
    | unknownReturnByte b =>
      cases h
      exact State.returnByte_lawful hs _
    | _ => simp_all [blocksOf, isEvent, orderOf]
  reset record phase s _ := ⟨Nat.zero_le 2, fun _ => rfl, fun _ _ => rfl, Nat.zero_le _⟩
  engine hb := absurd hb (by decide)
  acks hb := absurd hb (by decide)

/-- Settles O57. -/
theorem stepKeepsSequencerLaw : Obligations.StepKeepsSequencerLaw := fun s t hs h =>
  (sequencerLaw_iff t).2 (sequencerLaw_kept.step ((sequencerLaw_iff s).1 hs) h)

/-! ### Protected pages (R120) -/

/-- A line claimed or sent, and an erase, of the record after were so in the record before. -/
structure SqHolds (q r : Sq) : Prop where
  line : r.state = .programming → r.step ≠ .read → q.state = .programming ∧ q.step ≠ .read ∧ r.buffer.head? = q.buffer.head?
  erase : r.state = .erasing ∨ r.state = .eraseSuspended →
    (q.state = .erasing ∨ q.state = .eraseSuspended) ∧ r.eraseBlock = q.eraseBlock

theorem SqHolds.refl (q : Sq) : SqHolds q q := ⟨fun h1 h2 => ⟨h1, h2, rfl⟩, fun h => ⟨h, rfl⟩⟩

theorem SqHolds.of_eq {q r : Sq} (h : r = q) : SqHolds q r := h ▸ .refl q

theorem SqHolds.trans {p q r : Sq} (h : SqHolds p q) (k : SqHolds q r) : SqHolds p r where
  line h1 h2 := by
    obtain ⟨a, b, c⟩ := k.line h1 h2
    obtain ⟨a', b', c'⟩ := h.line a b
    exact ⟨a', b', c.trans c'⟩
  erase h1 := by
    obtain ⟨a, b⟩ := k.erase h1
    obtain ⟨a', b'⟩ := h.erase a
    exact ⟨a', b.trans b'⟩

/-- A state that holds neither. -/
theorem SqHolds.none {q r : Sq} (h1 : r.state ≠ .programming ∨ r.step = .read) (h2 : r.state ≠ .erasing) (h3 : r.state ≠ .eraseSuspended) :
    SqHolds q r :=
  ⟨fun a b => (by tauto), fun a => (by tauto)⟩

/-- What a command may leave: what was so before, or a target that has passed the tests. -/
def Guarded (s t : State) : Prop :=
  SqHolds s.sq t.sq ∨
    (t.sq.state = .programming ∧ ∃ l rest, t.sq.buffer = l :: rest ∧ targetTest t.sq t.fdm (l.page / 64) l.page 1 = none) ∨
    (t.sq.state = .erasing ∧ ∃ b, t.sq.eraseBlock = some b ∧ b < 64 ∧ targetTest t.sq t.fdm b (64 * b) 64 = none)

theorem targetTest_passes {q : Sq} {d : Fdm} {block base n : Nat} (h : targetTest q d block base n = none) :
    q.windowed block = false ∧ d.protects base n = false := by
  unfold targetTest at h
  split at h
  · cases h
  · next h1 =>
    split at h
    · cases h
    · next h2 => exact ⟨by simpa using h1, by simpa using h2⟩

theorem State.fetchesIdle_holds (s : State) : SqHolds s.sq s.fetchesIdle.sq := by
  unfold State.fetchesIdle
  split
  · next hi => exact ⟨fun h => (by cases h), fun _ => ⟨.inr hi.2, rfl⟩⟩
  · exact .refl _

theorem State.idleReport_holds (wasIdle : Bool) (s : State) : SqHolds s.sq (s.idleReport wasIdle).sq := by
  unfold State.idleReport
  split
  · next hi =>
    dsimp only
    split
    · exact ⟨fun h => (by cases h), fun _ => ⟨.inr hi.2.1, rfl⟩⟩
    · exact .refl _
  · exact s.fetchesIdle_holds

theorem Sq.sendWaiting_holds (q : Sq) : SqHolds q q.sendWaiting := by
  unfold Sq.sendWaiting
  split
  · next hs => exact ⟨fun h => (by rw [hs] at h; cases h), fun h => ⟨h, rfl⟩⟩
  · next hs =>
    split
    · next hc => exact ⟨fun _ _ => ⟨hs, (by rw [hc]; decide), rfl⟩, fun h => ⟨h, rfl⟩⟩
    · exact .refl _
  · exact .refl _

theorem State.enterFaulted_holds (cause : FaultCause) (why : LossReason) (s : State) : SqHolds s.sq (s.enterFaulted cause why).sq := by
  have hl : (s.stopPort.loseExposing why).sq = s.sq :=
    ((State.loseExposing_touches why _).sq (by decide)).trans (s.stopPort_touches.sq (by decide))
  have idle (u : State) (hu : u.sq = s.sq) : SqHolds s.sq u.fetchesIdle.sq := (SqHolds.of_eq hu).trans u.fetchesIdle_holds
  unfold State.enterFaulted
  exact idle _ hl

theorem State.returnByte_holds (b : Byte) (s : State) : SqHolds s.sq (s.returnByte b).sq := by
  refine State.returnByte_keeps (P := fun u => SqHolds s.sq u.sq) (.refl _) (fun _ _ h => h) (fun u c h => ?_) (fun u h => ?_) b
  · refine h.trans ?_
    unfold State.takeFault
    split
    · exact .refl _
    · exact u.enterFaulted_holds c .fault
  · exact h.trans (.of_eq u.takeDone_sq)

theorem State.endSession_holds (s : State) (q : Sq) : SqHolds q s.endSession.sq := by
  have h : s.endSession.sq.state = .locked ∨ s.endSession.sq.state = .idle := by
    change (if (!s.sq.kinds.isEmpty) = true then SqState.locked else .idle) = .locked ∨
      (if (!s.sq.kinds.isEmpty) = true then SqState.locked else .idle) = .idle
    split <;> simp
  refine .none (.inr rfl) ?_ ?_ <;> rcases h with h | h <;> rw [h] <;> decide

/-- R123: a pre-program read that has completed fails its line or claims the bank of one that passes the tests. -/
theorem State.sequencerRead_guarded (data : Bytes) (s : State) : Guarded s (s.sequencerRead data) := by
  unfold State.sequencerRead
  split
  · next hs =>
    unfold State.lineRead
    split
    · exact .inl (.refl _)
    · next l rest hb =>
      split
      · exact .inl (State.endSession_holds _ _)
      · split
        · exact .inl (State.endSession_holds _ _)
        · next ht => exact .inr (.inl ⟨hs, l, rest, hb, ht⟩)
  · next hs =>
    refine .inl ?_
    obtain e | ⟨found, e⟩ | ⟨c, n, -, e⟩ := s.pageRead_cases data <;> rw [e]
    · exact .refl _
    · rw [State.endCheck_sq]
      exact .none (.inl (by simp)) (by simp) (by simp)
    · exact .none (.inl (by simp [hs])) (by simp [hs]) (by simp [hs])
  · exact .inl (.refl _)

/-- What follows may change neither the window nor the regions. -/
theorem Guarded.after {s t u : State} (h : Guarded s t) (k : SqHolds t.sq u.sq) (hq : t.sq.state = .programming → u.sq = t.sq)
    (he : t.sq.state = .erasing → u.sq = t.sq) (hf : u.fdm = t.fdm) : Guarded s u := by
  obtain h | ⟨hs, h⟩ | ⟨hs, h⟩ := h
  · exact .inl (h.trans k)
  · refine .inr (.inl ?_)
    rw [hq hs, hf]
    exact ⟨hs, h⟩
  · refine .inr (.inr ?_)
    rw [he hs, hf]
    exact ⟨hs, h⟩

theorem Guarded.before {s t u : State} (h : SqHolds s.sq t.sq) (k : Guarded t u) : Guarded s u := k.imp_left h.trans

theorem Guarded.of_sq {s t : State} (h : t.sq = s.sq) : Guarded s t := .inl (.of_eq h)

theorem State.deliver_guarded (r : FetchReq) (data : Bytes) (s : State) : Guarded s (s.deliver r data) := by
  unfold State.deliver
  split
  · exact .of_sq ((s.mountPage_touches r data).sq (by decide))
  · exact .of_sq ((s.masterArrived_touches r data).sq (by decide))
  · exact s.sequencerRead_guarded data
  · exact .of_sq rfl

theorem State.idleReport_same {s : State} (wasIdle : Bool) (h : s.sq.state ≠ .eraseSuspended) : (s.idleReport wasIdle).sq = s.sq := by
  unfold State.idleReport
  rw [if_neg fun hi => h hi.2.1]
  unfold State.fetchesIdle
  rw [if_neg fun hi => h hi.2]

theorem writeTest_passes {q : Sq} {d : Fdm} {page offset : Nat} (h : writeTest q d page offset = none) :
    targetTest q d (page / 64) page 1 = none := by
  unfold writeTest at h
  split at h
  · cases h
  · exact h

theorem eraseTest_passes {q : Sq} {d : Fdm} {block : Nat} (h : eraseTest q d block = none) :
    block < 64 ∧ targetTest q d block (64 * block) 64 = none := by
  unfold eraseTest at h
  split at h
  · cases h
  · next hb => exact ⟨by omega, h⟩

theorem actStoreWrite_guarded (page offset : Word) (data : Bytes) (s : State) : Guarded s (actStoreWrite page offset data s).1 := by
  unfold actStoreWrite
  dsimp only
  split
  · exact .of_sq rfl
  · exact .of_sq rfl
  · exact .of_sq rfl
  · exact .of_sq rfl
  · split
    · exact .inl (.none (.inl (by simp [State.lockFor])) (by simp [State.lockFor]) (by simp [State.lockFor]))
    · exact .inl (.none (.inr rfl) (by simp [State.beginLine]) (by simp [State.beginLine]))
  · next hs =>
    split
    · exact .of_sq rfl
    · split
      · refine .inl ⟨fun _ h => ⟨hs, h, ?_⟩, fun h => ⟨h, rfl⟩⟩
        cases s.sq.buffer <;> rfl
      · next ht =>
        split
        · exact .of_sq rfl
        · cases hb : s.sq.buffer with
          | nil => exact .inr (.inl ⟨hs, _, _, rfl, writeTest_passes ht⟩)
          | cons l rest => exact .inl ⟨fun _ h => ⟨hs, h, by simp [hb]⟩, fun h => ⟨h, rfl⟩⟩

theorem actStoreErase_guarded (block : Byte) (s : State) : Guarded s (actStoreErase block s).1 := by
  unfold actStoreErase
  split
  · exact .of_sq rfl
  · split
    · exact .inl (.none (.inl (by simp [State.lockFor])) (by simp [State.lockFor]) (by simp [State.lockFor]))
    · next ht =>
      obtain ⟨hb, ht⟩ := eraseTest_passes ht
      exact .inr (.inr ⟨rfl, _, rfl, hb, ht⟩)
  · exact .of_sq rfl

theorem actStoreBlank_holds (first last : Word) (direction : Byte) (s : State) : SqHolds s.sq (actStoreBlank first last direction s).1.sq := by
  unfold actStoreBlank
  split
  · exact .refl _
  · split
    · exact .none (.inl (by simp [State.lockFor])) (by simp [State.lockFor]) (by simp [State.lockFor])
    · exact .none (.inl (by simp)) (by simp) (by simp)
  · exact .refl _

theorem actStoreMode_holds (mode limit : Byte) (s : State) : SqHolds s.sq (actStoreMode mode limit s).1.sq := by
  unfold actStoreMode
  split
  · exact ⟨fun h1 h2 => ⟨h1, h2, rfl⟩, fun h => ⟨h, rfl⟩⟩
  · exact .refl _

theorem actStoreClear_holds (s : State) : SqHolds s.sq (actStoreClear s).1.sq := by
  unfold actStoreClear
  split
  · exact .none (.inl (by simp)) (by simp) (by simp)
  · exact .refl _

theorem Sq.aborted_state (q : Sq) : q.aborted.state = .idle := by
  unfold Sq.aborted
  dsimp only
  split <;> rfl

theorem actStoreAbort_holds (s : State) : SqHolds s.sq (actStoreAbort s).1.sq := by
  have h : (actStoreAbort s).1.sq.state = .idle := s.sq.aborted_state
  exact .none (.inl (by rw [h]; decide)) (by rw [h]; decide) (by rw [h]; decide)

theorem actStoreWindow_holds (first last : Byte) (s : State) : SqHolds s.sq (actStoreWindow first last s).1.sq := by
  unfold actStoreWindow
  split
  · exact .refl _
  · split
    · exact ⟨fun h1 h2 => ⟨h1, h2, rfl⟩, fun h => ⟨h, rfl⟩⟩
    · split
      · exact .refl _
      · exact ⟨fun h1 h2 => ⟨h1, h2, rfl⟩, fun h => ⟨h, rfl⟩⟩

theorem Order.act_guarded (tag target : Byte) (o : Order) (s : State) : Guarded s (o.act tag target s).1 := by
  by_cases hb : Block.sq ∈ o.blocks
  · cases o with
    | storeWrite p off d => exact actStoreWrite_guarded p off d s
    | storeErase b => exact actStoreErase_guarded b s
    | storeBlank f l d => exact .inl (actStoreBlank_holds f l d s)
    | storeMode m l => exact .inl (actStoreMode_holds m l s)
    | storeClear => exact .inl (actStoreClear_holds s)
    | storeAbort => exact .inl (actStoreAbort_holds s)
    | storeWindow f l => exact .inl (actStoreWindow_holds f l s)
    | _ => simp [Order.blocks] at hb
  · exact .of_sq ((o.act_touches tag target s).sq hb)

theorem event_guarded {i : Instr} {s t : State} (hi : isEvent i) (hb : .sq ∈ blocksOf i) (h : exec i s = .next t) : Guarded s t := by
  cases i with
  | fetchChoice =>
    obtain rfl | ⟨r, -, -, rfl⟩ | ⟨-, -, rfl⟩ := execFetchChoice_cases h
    · exact .of_sq rfl
    · exact .of_sq rfl
    · refine .inl ?_
      rw [State.settle_sq]
      unfold State.fetchWaiting
      dsimp only
      split
      · exact ⟨fun h1 h2 => ⟨h1, h2, rfl⟩, fun h => ⟨h, rfl⟩⟩
      · exact .refl _
  | transferComplete =>
    obtain rfl | ⟨r, wanted, -, rfl⟩ := execTransferComplete_cases h
    · exact .of_sq rfl
    · have sent : SqHolds s.sq (s.transferred r).sq := s.sq.sendWaiting_holds
      have delivered : Guarded s (if wanted then (s.transferred r).deliver r (s.fetched r) else s.transferred r) := by
        split
        · exact .before sent (State.deliver_guarded r _ _)
        · exact .inl sent
      have ht := State.idleReport_touches (s.transferred r).fs.isIdle
        (if wanted then (s.transferred r).deliver r (s.fetched r) else s.transferred r)
      exact delivered.after (State.idleReport_holds _ _) (fun hs => State.idleReport_same _ (by rw [hs]; decide))
        (fun hs => State.idleReport_same _ (by rw [hs]; decide)) (ht.fdm (by decide))
  | programLineDone =>
    obtain rfl | ⟨l, rest, hp, -, hb, ⟨rfl, rfl⟩ | ⟨m, more, rfl, rfl⟩⟩ := execProgramLineDone_cases h
    · exact .of_sq rfl
    · exact .inl (State.endSession_holds _ _)
    · refine .inl (.none (.inr rfl) ?_ ?_) <;> exact fun he => by cases hp.symm.trans he
  | erasePaused =>
    obtain rfl | ⟨b, hp, -, -, rfl⟩ := execErasePaused_cases h
    · exact .of_sq rfl
    · refine .inl ?_
      rw [State.settle_sq]
      refine SqHolds.trans ?_ (State.fetchesIdle_holds (s.erasePaused b))
      rw [State.erasePaused_sq]
      exact ⟨fun h => (by cases h), fun _ => ⟨.inl hp, rfl⟩⟩
  | eraseDone =>
    obtain rfl | ⟨b, -, -, -, rfl⟩ := execEraseDone_cases h
    · exact .of_sq rfl
    · refine .inl ?_
      rw [State.settle_sq, State.blockErased_sq]
      exact .none (.inl (by simp)) (by simp) (by simp)
  | unitDone =>
    cases h
    exact .inl (s.returnByte_holds _)
  | unitFault b =>
    cases h
    exact .inl ((s.returnByte_holds _).trans (State.returnByte_holds _ _))
  | exposureTimeout =>
    obtain rfl | ⟨d, -, rfl⟩ := execExposureTimeout_cases h
    · exact .of_sq rfl
    · exact .inl (State.enterFaulted_holds _ _ { s with time := max s.time d })
  | unknownReturnByte b =>
    cases h
    exact .inl (s.returnByte_holds _)
  | _ => simp_all [blocksOf, isEvent, orderOf]

theorem exec_guarded {i : Instr} {s t : State} (h : exec i s = .next t) : Guarded s t := by
  obtain hi | ho := exec_origin h
  · by_cases hb : Block.sq ∈ blocksOf i
    · exact event_guarded hi hb h
    · exact .of_sq ((exec_touches h).sq hb)
  · cases ho with
    | link ht => exact .of_sq (ht.sq (by decide))
    | order tag target o u hu ht =>
      have hq := ht.sq (by decide)
      exact .before (.of_eq (hu.sq (by decide))) ((o.act_guarded tag target u).after (.of_eq hq) (fun _ => hq) (fun _ => hq)
        (ht.fdm (by decide)))
    | reset record phase ht =>
      refine .inl ?_
      rw [ht.sq (by decide)]
      exact .none (.inr rfl) (by simp [State.resetTo]) (by simp [State.resetTo])

/-- Settles O33. -/
theorem protectedPagesAreNeverWritten : Obligations.ProtectedPagesAreNeverWritten := by
  intro s t c h
  have hg := exec_guarded h
  constructor
  · intro hs hr hnot
    obtain hh | ⟨-, l, rest, hb, ht⟩ | ⟨he, -⟩ := hg
    · exact absurd (hh.line hs hr) hnot
    · exact ⟨l, rest, hb, targetTest_passes ht⟩
    · rw [hs] at he
      cases he
  · intro hs hnot
    obtain hh | ⟨hp, -⟩ | ⟨-, b, hb, hlt, ht⟩ := hg
    · exact absurd (hh.erase hs) hnot
    · rw [hp] at hs
      simp at hs
    · exact ⟨b, hb, hlt, targetTest_passes ht⟩

end Sys2Proof.Machine
end


section
/-! PROOF. Every step keeps the fetch queue and its bypass counts within their bounds (R109, R111, R116). -/

namespace Sys2Proof.Machine

/-- R109, R111, R116: the law of the fetch scheduler's record. -/
structure Fs.Lawful (f : Fs) : Prop where
  room : f.queue.length ≤ 32
  younger : ∀ r ∈ f.queue.tail, r.bypass = 0
  counts : ∀ r ∈ f.queue, r.bypass ≤ 15
  limit : f.bypassLimit ≤ 15

theorem fetchLaw_iff (s : State) : FetchLaw s ↔ s.fs.Lawful :=
  ⟨fun ⟨h1, h2, h3, h4⟩ => ⟨h1, h2, h3, h4⟩, fun ⟨h1, h2, h3, h4⟩ => ⟨h1, h2, h3, h4⟩⟩

/-! ### The scheduler's operations -/

theorem Fs.Lawful.like {f g : Fs} (h : f.Lawful) (hq : g.queue = f.queue) (hl : g.bypassLimit = f.bypassLimit) : g.Lawful where
  room := by rw [hq]; exact h.room
  younger := by rw [hq]; exact h.younger
  counts := by rw [hq]; exact h.counts
  limit := by rw [hl]; exact h.limit

/-- A request that joins the queue is its youngest, with a count of 0. -/
theorem Fs.Lawful.joins {f g : Fs} (h : f.Lawful) (hr : f.queue.length < 32) (r : FetchReq)
    (hq : g.queue = f.queue ++ [{ r with bypass := 0 }]) (hl : g.bypassLimit = f.bypassLimit) : g.Lawful where
  room := by rw [hq, List.length_append]; exact hr
  younger := by
    rw [hq]
    cases hf : f.queue with
    | nil => simp
    | cons o rest =>
      have hy := h.younger
      rw [hf] at hy
      simpa [or_imp, forall_and] using hy
  counts := by
    rw [hq]
    simpa [or_imp, forall_and] using h.counts
  limit := by rw [hl]; exact h.limit

theorem Fs.Lawful.request {f : Fs} (h : f.Lawful) (r : FetchReq) : (f.request r).Lawful := by
  unfold Fs.request
  split
  · next hr => exact h.joins hr.1 r rfl rfl
  · exact h.like rfl rfl

theorem Fs.Lawful.withdraw {f : Fs} (h : f.Lawful) (q : Requester) : (f.withdraw q).Lawful where
  room := (List.length_filter_le _ _).trans h.room
  younger r hr := h.younger r ((List.filter_sublist.tail).subset hr)
  counts r hr := h.counts r (List.filter_sublist.subset hr)
  limit := h.limit

/-- R111: the oldest request's count rises below the limit only. -/
theorem Fs.Lawful.serve {f : Fs} (h : f.Lawful) {r : FetchReq} (hc : f.chosen = some r) : (f.serve r).Lawful := by
  cases hq : f.queue with
  | nil => simp [Fs.chosen, hq] at hc
  | cons o rest =>
    have hroom := h.room
    have hyoung := h.younger
    have hcounts := h.counts
    have hlimit := h.limit
    rw [hq] at hroom hyoung hcounts
    have hsub : ∀ x ∈ rest.erase r, x ∈ rest := fun x hx => List.mem_of_mem_erase hx
    by_cases hr : r = o
    · have e : (f.serve r).queue = rest := by simp [Fs.serve, Fs.afterChoice, hq, hr]
      refine ⟨?_, ?_, ?_, hlimit⟩ <;> rw [e]
      · exact Nat.le_of_succ_le hroom
      · exact fun x hx => hyoung x (List.mem_of_mem_tail hx)
      · exact fun x hx => hcounts x (List.mem_cons_of_mem _ hx)
    · have hlt : o.bypass < f.bypassLimit := by
        by_contra hge
        simp only [Fs.chosen, hq, if_pos (Nat.le_of_not_lt hge)] at hc
        split at hc
        · cases hc
        · exact hr (Option.some.inj hc).symm
      have e : (f.serve r).queue = { o with bypass := o.bypass + 1 } :: rest.erase r := by
        simp [Fs.serve, Fs.afterChoice, hq, hr]
      refine ⟨?_, ?_, ?_, hlimit⟩ <;> rw [e]
      · exact (Nat.succ_le_succ (List.length_erase_le)).trans hroom
      · exact fun x hx => hyoung x (hsub x hx)
      · intro x hx
        obtain rfl | hx := List.mem_cons.1 hx
        · dsimp only
          omega
        · exact hcounts x (List.mem_cons_of_mem _ (hsub x hx))

theorem Fs.releaseBank_queue (f : Fs) (b : Fin 8) : (f.releaseBank b).queue = f.queue ∧ (f.releaseBank b).bypassLimit = f.bypassLimit := by
  unfold Fs.releaseBank
  split <;> exact ⟨rfl, rfl⟩

theorem Fs.Lawful.releaseBank {f : Fs} (h : f.Lawful) (b : Fin 8) : (f.releaseBank b).Lawful :=
  h.like (f.releaseBank_queue b).1 (f.releaseBank_queue b).2

theorem Fs.Lawful.releaseAll {f : Fs} (h : f.Lawful) : f.releaseAll.Lawful := by
  unfold Fs.releaseAll
  generalize eights = bs
  induction bs generalizing f with
  | nil => exact h
  | cons b bs ih => exact ih (h.releaseBank b)

theorem Fs.Lawful.completed {f : Fs} (h : f.Lawful) (now : Nat) (r : FetchReq) : (f.completed now r).Lawful := by
  unfold Fs.completed
  dsimp only
  split
  · exact h.like rfl rfl
  · split <;> exact h.like rfl rfl

theorem Fs.Lawful.stopSequencer {f : Fs} (h : f.Lawful) (q : Sq) : (f.stopSequencer q).Lawful := by
  unfold Fs.stopSequencer
  split
  · split
    · exact h.withdraw _
    · exact h.releaseBank _
  · exact h.releaseAll
  · exact h.withdraw _
  · exact h

theorem pumpMount_lawful (n : Nat) (d : Fdm) {f : Fs} (h : f.Lawful) : (pumpMount n d f).2.Lawful := by
  induction n generalizing d f with
  | zero => exact h
  | succ n ih =>
    unfold pumpMount
    split
    · split
      · split
        · exact ih _ (h.request _)
        · exact h
      · exact h
    · exact h

theorem pumpStrike_lawful (d : Fdm) (n : Nat) (a : Sa) {f : Fs} (h : f.Lawful) : (pumpStrike d n a f).2.Lawful := by
  induction n generalizing a f with
  | zero => exact h
  | succ n ih =>
    unfold pumpStrike
    split
    · exact h
    · split
      · exact h
      · split
        · refine ih _ ?_
          split
          · exact h.request _
          · exact h
        · split
          · exact ih _ (h.request _)
          · exact h

/-! ### The requesters -/

theorem State.pumpSa_lawful {s : State} (h : s.fs.Lawful) : s.pumpSa.fs.Lawful := pumpStrike_lawful _ _ _ h

theorem sendNext_lawful (n : Nat) {s : State} (h : s.fs.Lawful) : (sendNext n s).fs.Lawful := by
  induction n generalizing s with
  | zero => exact h
  | succ n ih =>
    unfold sendNext
    split
    · split
      · exact h
      · split
        · exact h
        · split
          · refine ih ?_
            exact State.pumpSa_lawful (s := { s with sa := _ }) h
          · exact h
    · exact h

theorem State.send_lawful {s : State} (h : s.fs.Lawful) : s.send.fs.Lawful := sendNext_lawful 9 h

theorem State.masterArrived_lawful {s : State} (h : s.fs.Lawful) (r : FetchReq) (data : Bytes) : (s.masterArrived r data).fs.Lawful := by
  have sent (u : State) (hu : u.fs = s.fs) : u.send.fs.Lawful := State.send_lawful (hu.symm ▸ h)
  have pumped (u : State) (hu : u.fs = s.fs) : u.pumpSa.fs.Lawful := State.pumpSa_lawful (hu.symm ▸ h)
  unfold State.masterArrived
  dsimp only
  split
  · split
    · exact sent _ rfl
    · split
      · exact h
      · split
        · exact sent _ rfl
        · exact pumped _ rfl
  · exact h

theorem State.recordSent_lawful {s : State} (h : s.fs.Lawful) (r : OutRecord) : (s.recordSent r).fs.Lawful := by
  have next : (State.pumpSa { s with sa := s.sa.sentRecord }).send.fs.Lawful :=
    State.send_lawful (State.pumpSa_lawful (s := { s with sa := s.sa.sentRecord }) h)
  cases r with
  | lineBegin => exact State.send_lawful h
  | strike => exact next
  | extend => exact next
  | lineEnd => exact h
  | calibrate => exact h
  | cut => exact h

theorem State.expose_lawful {s : State} (h : s.fs.Lawful) (q : QueuedLine) : (s.expose q).fs.Lawful := by
  have pumped (u : State) (hu : u.fs = s.fs) : u.pumpSa.fs.Lawful := State.pumpSa_lawful (hu.symm ▸ h)
  unfold State.expose State.assemble
  exact pumped _ rfl

theorem State.take_lawful {s : State} (h : s.fs.Lawful) (q : QueuedLine) : (s.take q).fs.Lawful := by
  unfold State.take
  split
  · exact State.expose_lawful h q
  · split
    · exact State.expose_lawful (s := { s with ex := _ }) h q
    · exact h

theorem State.arbitrate_lawful {s : State} (h : s.fs.Lawful) (n : Nat) : (s.arbitrate n).fs.Lawful := by
  induction n generalizing s with
  | zero => exact h
  | succ n ih =>
    unfold State.arbitrate
    split
    · exact h
    · split
      · refine ih ?_
        rw [(s.loseChannel_touches _).fs (by decide)]
        exact h
      · exact State.take_lawful (s := { s with ex := s.ex.passOver _ _ }) h _

theorem State.takeDone_lawful {s : State} (h : s.fs.Lawful) : s.takeDone.fs.Lawful := by
  unfold State.takeDone
  split
  · exact h
  · split
    · rw [(s.exposed_touches _).fs (by decide)]
      exact h
    · unfold State.calibrated
      dsimp only
      split
      · exact h
      · split
        · exact h
        · split
          · exact State.expose_lawful (s := { s with ex := _ }) h _
          · exact h
    · exact h
    · exact h

theorem State.fetchesIdle_fsLawful {s : State} (h : s.fs.Lawful) : s.fetchesIdle.fs.Lawful := by
  unfold State.fetchesIdle
  split
  · exact h.like rfl rfl
  · exact h

theorem State.idleReport_fsLawful {s : State} (h : s.fs.Lawful) (wasIdle : Bool) : (s.idleReport wasIdle).fs.Lawful := by
  unfold State.idleReport
  split
  · dsimp only
    split
    · exact h.like rfl rfl
    · exact h
  · exact State.fetchesIdle_fsLawful h

theorem State.enterFaulted_fsLawful {s : State} (h : s.fs.Lawful) (cause : FaultCause) (why : LossReason) :
    (s.enterFaulted cause why).fs.Lawful := by
  have stopped : s.stopPort.fs.Lawful := by
    unfold State.stopPort
    split
    · exact h.withdraw _
    · exact h
    · exact h
    · exact h
  have idle (u : State) (hu : u.fs = s.stopPort.fs) : u.fetchesIdle.fs.Lawful := State.fetchesIdle_fsLawful (hu.symm ▸ stopped)
  unfold State.enterFaulted
  exact idle _ ((State.loseExposing_touches why _).fs (by decide))

theorem State.returnByte_fsLawful {s : State} (h : s.fs.Lawful) (b : Byte) : (s.returnByte b).fs.Lawful := by
  refine State.returnByte_keeps (P := fun u => u.fs.Lawful) h (fun _ _ h => h) (fun u c hu => ?_) (fun u hu => State.takeDone_lawful hu) b
  unfold State.takeFault
  split
  · exact hu
  · exact State.enterFaulted_fsLawful hu c .fault

theorem State.sequencerRead_fsLawful {s : State} (h : s.fs.Lawful) (data : Bytes) : (s.sequencerRead data).fs.Lawful := by
  unfold State.sequencerRead
  split
  · unfold State.lineRead
    split
    · exact h
    · split
      · exact h
      · split
        · exact h
        · exact h.like rfl rfl
  · obtain e | ⟨found, e⟩ | ⟨c, n, -, e⟩ := s.pageRead_cases data <;> rw [e]
    · exact h
    · exact h
    · exact h.request _
  · exact h

theorem State.mountPage_fsLawful {s : State} (h : s.fs.Lawful) (r : FetchReq) (data : Bytes) : (s.mountPage r data).fs.Lawful := by
  have ends (d : Fdm) (l : Load) (fail : Option MountCause) : (State.loadEnds l fail { s with fdm := d }).fs.Lawful := by
    rw [(State.loadEnds_touches l fail { s with fdm := d }).fs (by decide)]
    exact h
  have pumps (d : Fdm) : (State.pumpLoader { s with fdm := d }).fs.Lawful := pumpMount_lawful _ _ h
  unfold State.mountPage
  split
  · exact h
  · dsimp only
    split
    · split
      · exact ends _ _ _
      · split
        · exact ends _ _ _
        · exact pumps _
    · split
      · exact ends _ _ _
      · exact pumps _

theorem State.deliver_fsLawful {s : State} (h : s.fs.Lawful) (r : FetchReq) (data : Bytes) : (s.deliver r data).fs.Lawful := by
  unfold State.deliver
  split
  · exact State.mountPage_fsLawful h r data
  · exact State.masterArrived_lawful h r data
  · exact State.sequencerRead_fsLawful h data
  · exact h

theorem State.entered_fsLawful {s : State} (h : s.fs.Lawful) (q : Requester) : (s.entered q).fs.Lawful := by
  cases q with
  | mount => exact pumpMount_lawful _ _ h
  | strike => exact State.pumpSa_lawful h
  | sequencer => exact h
  | link => rw [show s.entered .link = s.answer (.accept []) from rfl, State.answer_fs]; exact h

/-! ### Orders -/

theorem actStoreWrite_fsLawful {s : State} (h : s.fs.Lawful) (page offset : Word) (data : Bytes) :
    (actStoreWrite page offset data s).1.fs.Lawful := by
  unfold actStoreWrite
  dsimp only
  split
  · exact h
  · exact h
  · exact h
  · exact h
  · split
    · exact h
    · exact h.request _
  · split
    · exact h
    · split
      · exact h
      · split <;> exact h

theorem actStoreErase_fsLawful {s : State} (h : s.fs.Lawful) (block : Byte) : (actStoreErase block s).1.fs.Lawful := by
  unfold actStoreErase
  split
  · exact h
  · split
    · exact h
    · exact h.like rfl rfl
  · exact h

theorem actStoreBlank_fsLawful {s : State} (h : s.fs.Lawful) (first last : Word) (direction : Byte) :
    (actStoreBlank first last direction s).1.fs.Lawful := by
  unfold actStoreBlank
  split
  · exact h
  · split
    · exact h
    · exact h.request _
  · exact h

theorem actStoreRead_fsLawful {s : State} (h : s.fs.Lawful) (tag : Byte) (page offset length : Word) :
    (actStoreRead tag page offset length s).1.fs.Lawful := by
  unfold actStoreRead
  split
  · exact h
  · split
    · exact h
    · exact h.request _

theorem State.stopStore_fs (s : State) : s.stopStore.fs = s.fs := s.stopStore_touches.fs (by decide)

theorem actStoreAbort_fs (s : State) : (actStoreAbort s).1.fs = s.fs.stopSequencer s.sq := by
  unfold actStoreAbort
  rw [State.post_fs, s.stopStore_fs]

theorem actFetchSet_fsLawful {s : State} (h : s.fs.Lawful) (fields : List FieldEntry) : (actFetchSet fields s).1.fs.Lawful := by
  unfold actFetchSet
  split
  · exact h
  · exact ⟨h.room, h.younger, h.counts, Nat.min_le_left _ _⟩

theorem fetchLaw_kept : Kept [.fs] (fun s => s.fs.Lawful) where
  reads bs s t h hb hs := by
    change t.fs.Lawful
    rw [h.fs (hb _ (by decide))]
    exact hs
  link := by decide
  act tag target o s hb hs := by
    cases o with
    | fetchSet fs => exact actFetchSet_fsLawful hs fs
    | storeWrite p off d => exact actStoreWrite_fsLawful hs p off d
    | storeErase b => exact actStoreErase_fsLawful hs b
    | storeBlank f l d => exact actStoreBlank_fsLawful hs f l d
    | storeRead p off n => exact actStoreRead_fsLawful hs tag p off n
    | storeAbort =>
      change (actStoreAbort s).1.fs.Lawful
      rw [actStoreAbort_fs]
      exact hs.stopSequencer _
    | _ => simp [Order.blocks] at hb
  event i s t hi hb hs h := by
    cases i with
    | resetLineRelease =>
      simp only [exec, execResetLineRelease] at h
      split at h <;> cases h
      · exact hs.like rfl rfl
      · exact hs
    | mountLoadBegin =>
      obtain rfl | ⟨q, rest, p, -, -, -, rfl⟩ := execMountLoadBegin_cases h
      · exact hs
      · exact Fs.Lawful.request hs _
    | fetchChoice =>
      obtain rfl | ⟨r, -, hc, rfl⟩ | ⟨-, -, rfl⟩ := execFetchChoice_cases h
      · exact hs
      · exact Fs.Lawful.serve hs hc
      · rw [State.settle_fs, (s.fetchWaiting_touches).fs (by decide)]
        exact hs
    | fetchRequestEntry =>
      obtain rfl | ⟨r, rest, -, hr, rfl⟩ := execFetchRequestEntry_cases h
      · exact hs
      · refine State.entered_fsLawful (s := { s with fs := s.fs.enter r rest }) ?_ _
        exact Fs.Lawful.joins hs hr r rfl rfl
    | rowOpenDone =>
      simp only [exec, execRowOpenDone] at h
      split at h <;> cases h
      · exact hs.like rfl rfl
      · exact hs
    | transferComplete =>
      obtain rfl | ⟨r, wanted, -, rfl⟩ := execTransferComplete_cases h
      · exact hs
      · have ht : (s.transferred r).fs.Lawful := Fs.Lawful.completed hs _ r
        rw [State.settle_fs]
        refine State.idleReport_fsLawful ?_ _
        split
        · exact State.deliver_fsLawful ht r _
        · exact ht
    | holdDeadlineExpiry b =>
      simp only [exec, execHoldDeadlineExpiry] at h
      split at h <;> cases h
      · exact hs.like rfl rfl
      · exact hs
    | bankCloseDone b =>
      cases h
      exact hs.like rfl rfl
    | programLineDone =>
      obtain rfl | ⟨l, rest, -, -, -, ⟨-, rfl⟩ | ⟨m, more, -, rfl⟩⟩ := execProgramLineDone_cases h
      · exact hs
      · exact Fs.Lawful.releaseBank hs _
      · exact (Fs.Lawful.releaseBank hs _).request _
    | erasePaused =>
      obtain rfl | ⟨b, -, -, -, rfl⟩ := execErasePaused_cases h
      · exact hs
      · rw [State.settle_fs]
        refine State.fetchesIdle_fsLawful ?_
        rw [State.erasePaused_fs]
        exact Fs.Lawful.releaseAll hs
    | eraseDone =>
      obtain rfl | ⟨b, -, -, -, rfl⟩ := execEraseDone_cases h
      · exact hs
      · rw [State.settle_fs, State.blockErased_fs]
        exact Fs.Lawful.releaseAll hs
    | filmArbiter =>
      obtain rfl | ⟨-, rfl⟩ := execFilmArbiter_cases h
      · exact hs
      · exact State.arbitrate_lawful hs _
    | recordSent =>
      obtain rfl | ⟨r, rest, -, rfl⟩ := execRecordSent_cases h
      · exact hs
      · exact State.recordSent_lawful (s := { s with sa := { s.sa with lane := rest, acked := 0 } }) hs r
    | unitDone =>
      cases h
      exact State.returnByte_fsLawful hs _
    | unitFault b =>
      cases h
      exact State.returnByte_fsLawful (State.returnByte_fsLawful hs _) _
    | exposureTimeout =>
      obtain rfl | ⟨d, -, rfl⟩ := execExposureTimeout_cases h
      · exact hs
      · exact State.enterFaulted_fsLawful (s := { s with time := max s.time d }) hs _ _
    | unknownReturnByte b =>
      cases h
      exact State.returnByte_fsLawful hs _
    | _ => simp_all [blocksOf, isEvent, orderOf]
  reset record phase s _ := ⟨Nat.zero_le _, fun _ h => (by cases h), fun _ h => (by cases h), Nat.le_of_ble_eq_true rfl⟩
  engine hb := absurd hb (by decide)
  acks hb := absurd hb (by decide)

/-- Settles O53. -/
theorem stepKeepsFetchLaw : Obligations.StepKeepsFetchLaw := fun s t hs h =>
  (fetchLaw_iff t).2 (fetchLaw_kept.step ((fetchLaw_iff s).1 hs) h)

end Sys2Proof.Machine
end


section
/-! PROOF. Every step keeps the laws of the order link (R172, R176, R177); and every law of the part holds after a power-on reset. -/

namespace Sys2Proof.Machine

/-! ### What the blocks do to the link -/

/-- The receiver, the frame stores and the transmitter stay as they are, and a queue of at most 32 notices stays within 32. -/
structure Quiet (o p : Olu) : Prop where
  frames : p.frames = o.frames
  inHand : p.inHand = o.inHand
  receiver : p.receiver = o.receiver
  sending : p.sending = o.sending
  sent : p.sent = o.sent
  notices : o.notices.length ≤ 32 → p.notices.length ≤ 32

theorem Quiet.refl (o : Olu) : Quiet o o := ⟨rfl, rfl, rfl, rfl, rfl, id⟩

theorem Quiet.of_eq {o p : Olu} (h : p = o) : Quiet o p := h ▸ .refl o

theorem Quiet.trans {o p q : Olu} (h : Quiet o p) (k : Quiet p q) : Quiet o q :=
  ⟨k.frames.trans h.frames, k.inHand.trans h.inHand, k.receiver.trans h.receiver, k.sending.trans h.sending, k.sent.trans h.sent,
    fun n => k.notices (h.notices n)⟩

theorem Quiet.of_touches {s t : State} {bs : List Block} (h : Touches bs s t) (hb : .olu ∉ bs) : Quiet s.olu t.olu := .of_eq (h.olu hb)

theorem Olu.post_quiet (n : Notice) (o : Olu) : Quiet o (o.post n) := by
  refine ⟨by simp, by simp, by simp, by simp, ?_, fun h => ?_⟩
  · unfold Olu.post
    split <;> rfl
  · unfold Olu.post
    split
    · rw [List.length_append]
      assumption
    · exact h

theorem State.post_quiet (n : Notice) (s : State) : Quiet s.olu (s.post n).olu := s.olu.post_quiet n

theorem State.postAll_quiet (ns : List Notice) (s : State) : Quiet s.olu (s.postAll ns).olu := by
  induction ns generalizing s with
  | nil => exact .refl _
  | cons n ns ih => exact (s.post_quiet n).trans (ih (s.post n))

theorem State.answer_quiet (r : Reply) (s : State) : Quiet s.olu (s.answer r).olu := by
  unfold State.answer
  split
  · split
    · exact ⟨rfl, rfl, rfl, rfl, rfl, id⟩
    · exact .refl _
  · exact .refl _

theorem State.postEither_quiet (a b : List Notice) (s : State) : Quiet s.olu (s.postEither a b).olu := by
  unfold State.postEither
  split
  · exact s.postAll_quiet _
  · dsimp only
    split
    · exact State.postAll_quiet _ { s with serial := s.serial + 1 }
    · exact State.postAll_quiet _ { s with serial := s.serial + 1 }

theorem State.release_quiet (used : List (Fin 8)) (s : State) : Quiet s.olu (s.release used).olu :=
  State.postAll_quiet _ { s with fdm := (s.fdm.decRefs used).1 }

theorem State.hold_quiet (c : Fin 4) (why : HeldReason) (s : State) : Quiet s.olu (s.hold c why).olu := s.olu.post_quiet _

theorem State.reachHold_quiet (c : Fin 4) (s : State) : Quiet s.olu (s.reachHold c).olu := by
  unfold State.reachHold
  split
  · exact .refl _
  · exact State.hold_quiet c .reach { s with fdm := s.fdm.dropWaiter c }
  · exact s.hold_quiet c .reach

theorem State.restate_quiet (c : Fin 4) (s : State) : Quiet s.olu (s.restate c).olu := by
  unfold State.restate
  split
  · exact s.hold_quiet c .reach
  · exact .refl _

theorem State.deliverLine_quiet (c : Composition) (e : LineEnd) (s : State) : Quiet s.olu (s.deliverLine c e).olu := by
  unfold State.deliverLine
  refine Quiet.trans ?_ (State.restate_quiet _ _)
  exact s.olu.post_quiet _

theorem State.endWithout_quiet (c : Composition) (e : Ending) (s : State) : Quiet s.olu (s.endWithout c e).olu := by
  unfold State.endWithout
  dsimp only
  split
  · refine Quiet.trans ?_ (State.postEither_quiet _ _ _)
    exact .refl _
  · refine Quiet.trans ?_ (State.postEither_quiet _ _ _)
    exact .refl _

theorem State.sequencerRead_quiet (data : Bytes) (s : State) : Quiet s.olu (s.sequencerRead data).olu := by
  unfold State.sequencerRead
  split
  · unfold State.lineRead
    split
    · exact .refl _
    · split
      · exact s.olu.post_quiet _
      · split
        · exact s.olu.post_quiet _
        · exact .refl _
  · obtain e | ⟨found, e⟩ | ⟨c, n, -, e⟩ := s.pageRead_cases data <;> rw [e]
    · exact .refl _
    · exact s.olu.post_quiet _
    · exact .refl _
  · exact .refl _

theorem State.loadEnds_quiet (l : Load) (fail : Option MountCause) (s : State) : Quiet s.olu (s.loadEnds l fail).olu := by
  unfold State.loadEnds
  dsimp only
  rw [(State.wake_touches _ _).olu (by decide)]
  refine Quiet.trans ?_ (State.postAll_quiet _ _)
  exact s.olu.post_quiet _

theorem State.mountPage_quiet (r : FetchReq) (data : Bytes) (s : State) : Quiet s.olu (s.mountPage r data).olu := by
  have ends (d : Fdm) (l : Load) (fail : Option MountCause) : Quiet s.olu (State.loadEnds l fail { s with fdm := d }).olu :=
    State.loadEnds_quiet l fail { s with fdm := d }
  unfold State.mountPage
  split
  · exact .refl _
  · dsimp only
    split
    · split
      · exact ends _ _ _
      · split
        · exact ends _ _ _
        · exact .refl _
    · split
      · exact ends _ _ _
      · exact .refl _

theorem State.deliver_quiet (r : FetchReq) (data : Bytes) (s : State) : Quiet s.olu (s.deliver r data).olu := by
  unfold State.deliver
  split
  · exact s.mountPage_quiet r data
  · exact .of_touches (s.masterArrived_touches r data) (by decide)
  · exact s.sequencerRead_quiet data
  · exact s.olu.post_quiet _

theorem State.entered_quiet (q : Requester) (s : State) : Quiet s.olu (s.entered q).olu := by
  cases q with
  | link => exact s.answer_quiet _
  | mount => exact .refl _
  | strike => exact .refl _
  | sequencer => exact .refl _

theorem State.loseLine_quiet (l : Line) (why : LossReason) (s : State) : Quiet s.olu (s.loseLine l why).olu :=
  (s.post_quiet _).trans (State.release_quiet _ _)

theorem State.loseQueued_quiet (qs : List QueuedLine) (s : State) : Quiet s.olu (s.loseQueued qs).olu := by
  induction qs generalizing s with
  | nil => exact .refl _
  | cons q qs ih =>
    unfold State.loseQueued
    refine Quiet.trans ?_ (ih _)
    exact s.loseLine_quiet _ _

theorem State.arbitrate_quiet (n : Nat) (s : State) : Quiet s.olu (s.arbitrate n).olu := by
  induction n generalizing s with
  | zero => exact .refl _
  | succ n ih =>
    unfold State.arbitrate
    split
    · exact .refl _
    · split
      · refine Quiet.trans ?_ (ih _)
        exact (s.loseQueued_quiet _).trans (State.reachHold_quiet _ _)
      · next q qs _ _ =>
        have ht := State.take_touches (s.ex.choice q) { s with ex := s.ex.passOver q (s.ex.choice q) }
        exact .of_eq (ht.olu (by decide))

theorem State.exposed_quiet (x : ExposingLine) (s : State) : Quiet s.olu (s.exposed x).olu := by
  unfold State.exposed
  refine Quiet.trans ?_ (State.release_quiet _ _)
  exact s.olu.post_quiet _

theorem State.takeDone_quiet (s : State) : Quiet s.olu s.takeDone.olu := by
  unfold State.takeDone
  split
  · exact .refl _
  · split
    · exact s.exposed_quiet _
    · exact .of_touches s.calibrated_touches (by decide)
    · exact .refl _
    · exact .refl _

theorem State.loseExposing_quiet (why : LossReason) (s : State) : Quiet s.olu (s.loseExposing why).olu := by
  unfold State.loseExposing
  split
  · exact s.loseLine_quiet _ _
  · exact .refl _

theorem State.enterFaulted_quiet (cause : FaultCause) (why : LossReason) (s : State) : Quiet s.olu (s.enterFaulted cause why).olu := by
  unfold State.enterFaulted
  refine Quiet.trans ?_ (.of_touches (State.fetchesIdle_touches _) (by decide))
  refine Quiet.trans ?_ (Olu.post_quiet _ _)
  exact Quiet.trans (.of_touches s.stopPort_touches (by decide)) (State.loseExposing_quiet why _)

theorem State.returnByte_quiet (b : Byte) (s : State) : Quiet s.olu (s.returnByte b).olu := by
  refine State.returnByte_keeps (P := fun u => Quiet s.olu u.olu) (.refl _) (fun _ _ h => h) (fun u c h => h.trans ?_)
    (fun u h => h.trans u.takeDone_quiet) b
  unfold State.takeFault
  split
  · exact .refl _
  · exact u.enterFaulted_quiet c .fault

theorem Order.act_quiet (tag target : Byte) (o : Order) (s : State) : Quiet s.olu (o.act tag target s).1.olu := by
  by_cases hb : Block.olu ∈ o.blocks
  · cases o with
    | cancel =>
      change Quiet s.olu (actCancel target s).1.olu
      unfold actCancel
      split
      · exact .refl _
      · dsimp only
        have discarded (c : Fin 4) (u : State) : Quiet u.olu (u.discardOf c).olu := by
          unfold State.discardOf
          split
          · split
            · exact u.endWithout_quiet _ _
            · exact .refl _
          · exact .refl _
        refine Quiet.trans ?_ (discarded _ _)
        refine Quiet.trans ?_ (State.release_quiet _ _)
        exact .refl _
    | storeAbort =>
      have ht : s.stopStore.olu = s.olu := s.stopStore_touches.olu (by decide)
      exact (Quiet.of_eq ht).trans (Olu.post_quiet _ _)
    | reset => exact ⟨rfl, rfl, rfl, rfl, rfl, id⟩
    | recordClear => exact ⟨rfl, rfl, rfl, rfl, rfl, id⟩
    | _ => simp [Order.blocks] at hb
  · exact .of_touches (o.act_touches tag target s) hb

/-! ### The link's law -/

/-- R172, R176, R177: the law of the order link's record. -/
structure Olu.Lawful (o : Olu) : Prop where
  notices : o.notices.length ≤ 32
  stores : o.storesOccupied ≤ 2
  idle : o.sending = none → o.sent = 0
  within : ∀ r, o.sending = some r → o.sent < r.bytes.length

theorem linkLaw_iff (s : State) : LinkLaw s ↔ s.olu.Lawful :=
  ⟨fun ⟨h1, h2, h3, h4⟩ => ⟨h1, h2, h3, h4⟩, fun ⟨h1, h2, h3, h4⟩ => ⟨h1, h2, h3, h4⟩⟩

theorem Olu.Lawful.quiet {o p : Olu} (h : o.Lawful) (k : Quiet o p) : p.Lawful where
  notices := k.notices h.notices
  stores := by
    have hs := h.stores
    unfold Olu.storesOccupied at *
    rwa [k.frames, k.inHand, k.receiver]
  idle := by rw [k.sending, k.sent]; exact h.idle
  within := by rw [k.sending, k.sent]; exact h.within

theorem Return.bytes_pos (r : Return) : 0 < r.bytes.length := by
  rw [r.bytes_length]
  exact Nat.succ_pos _

/-- R176: the transmitter takes its next return, none of whose bytes has gone. -/
theorem Olu.Lawful.transmit {o : Olu} (h : o.Lawful) : o.transmit.Lawful where
  notices := o.transmit_notices_le.trans h.notices
  stores := by
    have hs := h.stores
    unfold Olu.storesOccupied at *
    rwa [Olu.transmit_frames, Olu.transmit_inHand, Olu.transmit_receiver]
  idle hn := by
    rw [Olu.transmit_sent]
    refine h.idle ?_
    by_contra hs
    have : o.transmit = o := by simp [Olu.transmit, hs]
    exact hs (this ▸ hn)
  within r hr := by
    rw [Olu.transmit_sent]
    by_cases hs : o.sending = none
    · rw [h.idle hs]
      exact r.bytes_pos
    · have : o.transmit = o := by simp [Olu.transmit, hs]
      exact h.within r (this ▸ hr)

theorem State.settle_lawful {s : State} (h : s.olu.Lawful) : s.settle.olu.Lawful := h.transmit

/-- The occupied frame stores, the receiver's apart. -/
def Olu.storesHeld (o : Olu) : Nat := o.frames.length + (if o.inHand.isSome then 1 else 0)

/-- Whether the receiver occupies a frame store. -/
def Receiver.takesStore : Receiver → Bool
  | .body _ _ _ _ _ => true
  | _ => false

theorem Olu.storesOccupied_eq (o : Olu) : o.storesOccupied = o.storesHeld + (if o.receiver.takesStore then 1 else 0) := by
  unfold Olu.storesOccupied Olu.storesHeld Receiver.takesStore
  cases o.receiver <;> rfl

/-- A change of the receiver and the frame stores alone. -/
theorem Olu.Lawful.stored {o p : Olu} (h : o.Lawful) (hn : p.notices = o.notices) (hs : p.sending = o.sending) (ht : p.sent = o.sent)
    (hp : p.storesHeld + (if p.receiver.takesStore then 1 else 0) ≤ 2) : p.Lawful :=
  ⟨hn ▸ h.notices, p.storesOccupied_eq ▸ hp, by rw [hs, ht]; exact h.idle, by rw [hs, ht]; exact h.within⟩

theorem Olu.Lawful.takeHeader {o : Olu} (h : o.Lawful) (hf : o.storesHeld < 2) (six : Bytes) : (o.takeHeader six).Lawful := by
  unfold Olu.takeHeader
  dsimp only
  split
  · refine h.stored rfl rfl rfl ?_
    simp only [Olu.storesHeld, Receiver.takesStore, List.length_append] at *
    simp
    omega
  · refine h.stored rfl rfl rfl ?_
    exact Nat.succ_le_of_lt hf

theorem hunt_ok {free : Bool} : ∀ {bs six : Bytes}, hunt free bs = .ok six → free = true := by
  intro bs
  induction bs with
  | nil => intro six h; cases h
  | cons b rest ih =>
    intro six h
    unfold hunt at h
    split at h
    · exact ih h
    · split at h
      · cases h
      · split at h
        · next hp => exact (Bool.and_eq_true _ _ ▸ hp).2
        · exact ih h

theorem Olu.Lawful.held {o : Olu} (h : o.Lawful) : o.storesHeld ≤ 2 := by
  have := h.stores
  rw [o.storesOccupied_eq] at this
  omega

theorem Olu.Lawful.huntOn {o : Olu} (h : o.Lawful) (buf : Bytes) : (o.huntOn buf).Lawful := by
  have hw : Olu.Lawful { o with receiver := .waiting } := h.stored rfl rfl rfl h.held
  unfold Olu.huntOn
  dsimp only
  split
  · next six hh =>
    refine hw.takeHeader ?_ six
    have := hunt_ok hh
    simp only [Olu.storeFree, decide_eq_true_eq] at this
    rw [Olu.storesOccupied_eq] at this
    exact this
  · exact h.stored rfl rfl rfl h.held

theorem Olu.Lawful.rxByte {o : Olu} (h : o.Lawful) (now : Nat) (b : Byte) : (o.rxByte now b).Lawful := by
  unfold Olu.rxByte
  split
  · exact h
  · split
    · split
      · exact h.stored rfl rfl rfl h.held
      · exact h
    · dsimp only
      split
      · exact h.stored rfl rfl rfl h.held
      · split
        · next hr _ hp =>
          refine h.takeHeader ?_ _
          simp only [Bool.and_eq_true, Olu.storeFree, decide_eq_true_eq] at hp
          have := hp.2
          rw [Olu.storesOccupied_eq] at this
          omega
        · exact h.huntOn _
    · next kind tag target len got hr =>
      have hs := h.stores
      rw [Olu.storesOccupied_eq, hr] at hs
      dsimp only
      split
      · exact h.stored rfl rfl rfl hs
      · refine h.stored rfl rfl rfl ?_
        simpa [Olu.takeBody, Olu.storesHeld, Receiver.takesStore, Nat.add_right_comm] using hs
    · exact h.huntOn _

theorem State.rxBytes_lawful {s : State} (h : s.olu.Lawful) (bs : Bytes) : (s.rxBytes bs).olu.Lawful := by
  unfold State.rxBytes
  dsimp only
  generalize s.olu = o at *
  induction bs generalizing o with
  | nil => exact h
  | cons b bs ih => exact ih _ (h.rxByte _ b)

/-! ### Orders -/

/-- R173, R174: an order that comes into the dispatcher's hand from a free frame store. -/
theorem Olu.Lawful.hand {o : Olu} (h : o.Lawful) (hd : Head) (hn : o.frames.length + 1 + (if o.receiver.takesStore then 1 else 0) ≤ 2) :
    Olu.Lawful { o with inHand := some hd } := h.stored rfl rfl rfl hn

theorem State.takeOrder_lawful {s : State} {h : Head} (hs : (s.inHand h).olu.Lawful) (o : Order) : (s.takeOrder h o).olu.Lawful := by
  unfold State.takeOrder
  split
  · exact (hs.quiet (o.act_quiet _ _ _)).quiet (State.answer_quiet _ _)
  · exact hs.quiet (State.answer_quiet _ _)

theorem State.takeFrame_lawful {s : State} {f : Frame} (hs : (s.inHand ⟨f.kind, f.tag, f.target⟩).olu.Lawful) : (s.takeFrame f).olu.Lawful := by
  unfold State.takeFrame
  dsimp only
  split
  · exact hs.quiet (State.answer_quiet _ _)
  · split
    · exact State.takeOrder_lawful hs _
    · exact hs.quiet (State.answer_quiet _ _)
    · exact hs.quiet (State.answer_quiet _ _)

theorem State.giveOrder_lawful {s : State} (h : s.olu.Lawful) (tag target : Byte) (o : Order) : (s.giveOrder tag target o).olu.Lawful := by
  unfold State.giveOrder
  dsimp only
  split
  · next hc =>
    have hr : s.olu.receiver = .waiting := by
      simp only [State.canTake, Bool.and_eq_true, beq_iff_eq] at hc
      exact hc.1.1.2
    have hfree : s.olu.storesHeld < 2 := by
      simp only [State.canTake, Bool.and_eq_true, Olu.storeFree, decide_eq_true_eq] at hc
      have := hc.1.2
      rw [Olu.storesOccupied_eq] at this
      omega
    split
    · next hn =>
      refine State.takeOrder_lawful ?_ o
      exact h.hand _ (by simp [hn.2, hr, Receiver.takesStore])
    · refine h.stored rfl rfl rfl ?_
      simp only [Olu.storesHeld, hr, Receiver.takesStore, List.length_append] at *
      simp
      omega
  · exact State.rxBytes_lawful h _

theorem Olu.lawful_fresh (o : Olu) (h1 : o.notices = []) (h2 : o.frames = []) (h3 : o.inHand = none) (h4 : o.receiver = .waiting)
    (h5 : o.sending = none) (h6 : o.sent = 0) : o.Lawful :=
  ⟨by simp [h1], by simp [Olu.storesOccupied, h2, h3, h4], fun _ => h6, fun r hr => by rw [h5] at hr; cases hr⟩

/-! ### Commands -/

theorem State.erasePaused_olu (b : Nat) (s : State) : (s.erasePaused b).olu = s.olu := by
  unfold State.erasePaused
  dsimp only
  rw [State.undefine_olu]

theorem State.blockErased_olu (b : Nat) (s : State) :
    (s.blockErased b).olu = s.olu.post (.storeDone (.erase b s.sq.suspendCount) .done s.sq.kinds) := by
  unfold State.blockErased
  rw [State.post_olu]
  dsimp only
  rw [State.blankBlock_olu]

theorem execDispatch_lawful {s t : State} (hs : s.olu.Lawful) (h : execDispatch s = .next t) : t.olu.Lawful := by
  unfold execDispatch at h
  split at h
  · next f rest _ hn hf =>
    cases h
    refine State.settle_lawful (State.takeFrame_lawful ?_)
    refine Olu.Lawful.stored hs rfl rfl rfl ?_
    have := hs.stores
    rw [Olu.storesOccupied_eq] at this
    simp only [Olu.storesHeld, hf, hn, List.length_cons, State.inHand_olu] at *
    simpa using this
  · cases h
    exact State.settle_lawful hs

theorem execAnswerSent_lawful {s t : State} (hs : s.olu.Lawful) (h : execAnswerSent s = .next t) : t.olu.Lawful := by
  unfold execAnswerSent at h
  split at h
  · split at h
    · split at h
      · cases h
        exact State.settle_lawful (Olu.lawful_fresh _ rfl rfl rfl rfl rfl rfl)
      · cases h
        refine State.settle_lawful ⟨hs.notices, ?_, fun _ => rfl, fun r hr => by cases hr⟩
        have := hs.stores
        rw [Olu.storesOccupied_eq] at *
        simp only [Olu.storesHeld] at *
        simp
        omega
    · cases h
      exact State.settle_lawful hs
  · cases h
    exact State.settle_lawful hs

theorem execNoticeSent_lawful {s t : State} (hs : s.olu.Lawful) (h : execNoticeSent s = .next t) : t.olu.Lawful := by
  unfold execNoticeSent at h
  split at h
  · split at h
    · cases h
      exact State.settle_lawful hs
    · cases h
      exact State.settle_lawful ⟨hs.notices, hs.stores, fun _ => rfl, fun r hr => by cases hr⟩
  · cases h
    exact State.settle_lawful hs

theorem execStartupEnd_lawful {s t : State} (hs : s.olu.Lawful) (h : execStartupEnd s = .next t) : t.olu.Lawful := by
  unfold execStartupEnd at h
  split at h
  · cases h
    refine State.settle_lawful ⟨?_, ?_, hs.idle, hs.within⟩
    · rw [List.length_take]
      exact Nat.min_le_left _ _
    · rw [Olu.storesOccupied_eq]
      exact hs.held
  · cases h
    exact State.settle_lawful hs

/-- The blocks' own events: the link only has notices posted and its answer given, and then chooses. -/
theorem event_lawful {i : Instr} {s t : State} (hi : isEvent i) (hs : s.olu.Lawful) (h : exec i s = .next t) : t.olu.Lawful := by
  have settled {u : State} (k : Quiet s.olu u.olu) : u.settle.olu.Lawful := State.settle_lawful (hs.quiet k)
  have hread : Quiet s.olu s.readOn.olu := .of_touches s.readOn_touches (by decide)
  cases i with
  | resetLineRelease =>
    simp only [exec, execResetLineRelease] at h
    split at h <;> cases h
    · exact State.settle_lawful (hs.quiet ⟨rfl, rfl, rfl, rfl, rfl, id⟩)
    · exact State.settle_lawful hs
  | startupEnd => exact execStartupEnd_lawful hs h
  | headerReceived bs => cases h; exact State.settle_lawful (State.rxBytes_lawful hs bs)
  | huntCandidate bs => cases h; exact State.settle_lawful (State.rxBytes_lawful hs bs)
  | frameReceived bs => cases h; exact State.settle_lawful (State.rxBytes_lawful hs bs)
  | attentionPulseExpiry =>
    simp only [exec, execAttentionPulseExpiry] at h
    split at h <;> cases h
    · exact State.settle_lawful (hs.quiet ⟨rfl, rfl, rfl, rfl, rfl, id⟩)
    · exact State.settle_lawful hs
  | noticeSent => exact execNoticeSent_lawful hs h
  | arbiterChoice =>
    obtain rfl | ⟨c, slot, -, -, -, rfl⟩ := execArbiterChoice_cases h
    · exact State.settle_lawful hs
    · exact settled (.of_touches (s.serve_touches c slot) (by decide))
  | lineDelivery =>
    obtain rfl | ⟨c, -, rfl | ⟨e, -, rfl⟩⟩ := execLineDelivery_cases h
    · exact settled hread
    · exact settled (hread.trans (State.endWithout_quiet _ _ _))
    · exact settled (hread.trans (State.deliverLine_quiet _ _ _))
  | compositionAbandon =>
    obtain rfl | ⟨c, e, -, rfl⟩ := execCompositionAbandon_cases h
    · exact settled hread
    · exact settled (hread.trans (State.endWithout_quiet _ _ _))
  | mountLoadBegin =>
    obtain rfl | ⟨q, rest, p, -, -, -, rfl⟩ := execMountLoadBegin_cases h
    · exact State.settle_lawful hs
    · exact settled (.refl _)
  | fetchChoice =>
    obtain rfl | ⟨r, -, -, rfl⟩ | ⟨-, -, rfl⟩ := execFetchChoice_cases h
    · exact State.settle_lawful hs
    · exact settled (.refl _)
    · exact settled (.of_touches s.fetchWaiting_touches (by decide))
  | fetchRequestEntry =>
    obtain rfl | ⟨r, rest, -, -, rfl⟩ := execFetchRequestEntry_cases h
    · exact State.settle_lawful hs
    · exact settled (State.entered_quiet r.requester { s with fs := s.fs.enter r rest })
  | rowOpenDone =>
    simp only [exec, execRowOpenDone] at h
    split at h <;> cases h <;> exact State.settle_lawful hs
  | transferComplete =>
    obtain rfl | ⟨r, wanted, -, rfl⟩ := execTransferComplete_cases h
    · exact State.settle_lawful hs
    · refine settled (Quiet.trans ?_ (.of_touches (State.idleReport_touches _ _) (by decide)))
      split
      · exact State.deliver_quiet r _ (s.transferred r)
      · exact .refl _
  | holdDeadlineExpiry b =>
    simp only [exec, execHoldDeadlineExpiry] at h
    split at h <;> cases h <;> exact State.settle_lawful hs
  | bankCloseDone b => cases h; exact State.settle_lawful hs
  | programLineDone =>
    obtain rfl | ⟨l, rest, -, -, -, ⟨-, rfl⟩ | ⟨m, more, -, rfl⟩⟩ := execProgramLineDone_cases h
    · exact State.settle_lawful hs
    · exact settled (s.olu.post_quiet _)
    · exact settled (.refl _)
  | erasePaused =>
    obtain rfl | ⟨b, -, -, -, rfl⟩ := execErasePaused_cases h
    · exact State.settle_lawful hs
    · refine settled (Quiet.trans ?_ (.of_touches (State.fetchesIdle_touches (s.erasePaused b)) (by decide)))
      rw [State.erasePaused_olu]
      exact .refl _
  | eraseDone =>
    obtain rfl | ⟨b, -, -, -, rfl⟩ := execEraseDone_cases h
    · exact State.settle_lawful hs
    · refine settled ?_
      rw [State.blockErased_olu]
      exact s.olu.post_quiet _
  | filmArbiter =>
    obtain rfl | ⟨-, rfl⟩ := execFilmArbiter_cases h
    · exact State.settle_lawful hs
    · exact settled (s.arbitrate_quiet _)
  | recordSent =>
    obtain rfl | ⟨r, rest, -, rfl⟩ := execRecordSent_cases h
    · exact State.settle_lawful hs
    · have ht := State.recordSent_touches r { s with sa := { s.sa with lane := rest, acked := 0 } }
      exact settled (.of_eq (ht.olu (by decide)))
  | unitDone => cases h; exact settled (s.returnByte_quiet _)
  | unitFault b => cases h; exact settled ((s.returnByte_quiet _).trans (State.returnByte_quiet _ _))
  | exposureTimeout =>
    obtain rfl | ⟨d, -, rfl⟩ := execExposureTimeout_cases h
    · exact State.settle_lawful hs
    · exact settled (State.enterFaulted_quiet _ _ { s with time := max s.time d })
  | unknownReturnByte b => cases h; exact settled (s.returnByte_quiet _)
  | _ => simp_all [isEvent, orderOf]

theorem exec_lawful {i : Instr} {s t : State} (hs : s.olu.Lawful) (h : exec i s = .next t) : t.olu.Lawful := by
  cases ho : orderOf i with
  | some q =>
    rw [exec_order (tag := q.1) (target := q.2.1) (o := q.2.2) ho] at h
    cases h
    exact State.settle_lawful (State.giveOrder_lawful hs _ _ _)
  | none =>
    by_cases he : isEvent i
    · exact event_lawful he hs h
    · simp only [isEvent, ho, true_and, not_and_or, not_not] at he
      obtain rfl | rfl | rfl | rfl := he
      · exact execDispatch_lawful hs h
      · cases h
        exact State.settle_lawful (Olu.lawful_fresh _ rfl rfl rfl rfl rfl rfl)
      · simp only [exec, execResetLineAssert] at h
        split at h <;> cases h
        · exact State.settle_lawful hs
        · exact State.settle_lawful (Olu.lawful_fresh _ rfl rfl rfl rfl rfl rfl)
      · exact execAnswerSent_lawful hs h

theorem State.linkSends_lawful {s : State} (hs : s.olu.Lawful) : s.linkSends.olu.Lawful := by
  obtain ⟨-, e⟩ | ⟨r, n, hr, hn, e⟩ := s.linkSends_cases <;> rw [e]
  · exact hs
  · refine ⟨hs.notices, hs.stores, fun h => ?_, fun q hq => ?_⟩
    · rw [hr] at h
      cases h
    · cases hr.symm.trans hq
      exact hn

/-- Settles O52. -/
theorem stepKeepsLinkLaw : Obligations.StepKeepsLinkLaw := by
  intro s t hs h
  rw [linkLaw_iff] at *
  unfold step at h
  split at h
  · next c rest _ => exact exec_lawful (s := { s with pending := rest }) hs h
  · cases h
    refine State.linkSends_lawful ?_
    rw [State.unitAcks_olu, s.readNext_touches.olu (by decide)]
    exact hs

/-! ### After a power-on reset -/

/-- Settles O50. -/
theorem resetHasEveryLaw : Obligations.ResetHasEveryLaw := by
  have referred : Referred State.reset := by
    refine ⟨⟨fun _ h => (by cases h), fun _ h => (by cases h), fun _ h => (by cases h)⟩, ⟨fun p => ?_, fun p hp => ?_, fun _ h => (by cases h)⟩⟩
    · simp [State.reset, State.uses, Ex.uses]
    · simp [State.reset] at hp
  refine ⟨Memory.wf_reset, (linkLaw_iff _).2 (Olu.lawful_fresh _ rfl rfl rfl rfl rfl rfl), ?_, fun c => ?_, fun c => ?_,
    fun f g _ hf _ => absurd (by simp [State.reset]) hf, ?_, .of_idle rfl, slotLaw_exKept.fresh rfl rfl,
    (slotBypassLaw_exKept.fresh rfl rfl).2, Nat.zero_le _, (slotFilmLaw_exKept.fresh rfl rfl).2, (referred_iff _).1 referred⟩
  · exact ⟨Nat.zero_le _, fun _ h => (by cases h), fun _ h => (by cases h), by decide⟩
  · have e : State.reset.ch[c] = {} := by simp [State.reset]
    rw [e]
    exact copyLaw_channelKept.fresh
  · have e : State.reset.ch[c] = {} := by simp [State.reset]
    rw [e]
    exact settingLaw_channelKept.fresh
  · exact ⟨by decide, fun _ => rfl, fun _ _ => rfl, by decide⟩

end Sys2Proof.Machine
end


section
/-! PROOF. Orders on the link: their bodies (R184, R185), what an order does on a free link (R173, R174) and behind another, and one step of the part. -/

namespace Sys2Proof.Machine

/-! ### Fields of two and four bytes (R184) -/

theorem word_u16 (v : Word) : word (BitVec.ofNat 8 (v.toNat / 256)) (BitVec.ofNat 8 v.toNat) = v := by
  unfold word
  refine BitVec.eq_of_toNat_eq ?_
  have := v.isLt
  rw [BitVec.toNat_append, BitVec.toNat_ofNat, BitVec.toNat_ofNat, ← Nat.shiftLeft_add_eq_or_of_lt (Nat.mod_lt _ (by decide)), Nat.shiftLeft_eq]
  omega

theorem word_toNat (a b : Byte) : (word a b).toNat = a.toNat * 256 + b.toNat := by
  unfold word
  rw [BitVec.toNat_append, ← Nat.shiftLeft_add_eq_or_of_lt b.isLt, Nat.shiftLeft_eq]

theorem u16_word (a b : Byte) : u16 (word a b).toNat = [a, b] := by
  have ha := a.isLt
  have hb := b.isLt
  rw [word_toNat]
  refine congrArg₂ (fun x y => [x, y]) (BitVec.eq_of_toNat_eq ?_) (BitVec.eq_of_toNat_eq ?_) <;> rw [BitVec.toNat_ofNat] <;> omega

theorem u32_words (a b c d : Byte) : u32 (word a b ++ word c d).toNat = [a, b, c, d] := by
  have h : (word a b ++ word c d).toNat = (word a b).toNat * 65536 + (word c d).toNat := by
    rw [BitVec.toNat_append, ← Nat.shiftLeft_add_eq_or_of_lt (word c d).isLt, Nat.shiftLeft_eq]
  have hl : u16 ((word a b).toNat * 65536 + (word c d).toNat) = u16 (word c d).toNat := by
    unfold u16
    congr 1
    · refine BitVec.eq_of_toNat_eq ?_
      rw [BitVec.toNat_ofNat, BitVec.toNat_ofNat]
      omega
    · congr 1
      refine BitVec.eq_of_toNat_eq ?_
      rw [BitVec.toNat_ofNat, BitVec.toNat_ofNat]
      omega
  have hh : ((word a b).toNat * 65536 + (word c d).toNat) / 65536 = (word a b).toNat := by
    have := (word c d).isLt
    omega
  rw [h, u32, hl, hh, u16_word, u16_word]
  rfl

theorem words_u32 (v : BitVec 32) :
    ∃ a b c d : Byte, u32 v.toNat = [a, b, c, d] ∧ word a b ++ word c d = v := by
  refine ⟨_, _, _, _, rfl, BitVec.eq_of_toNat_eq ?_⟩
  have := v.isLt
  rw [BitVec.toNat_append, ← Nat.shiftLeft_add_eq_or_of_lt (BitVec.isLt _), Nat.shiftLeft_eq, word_toNat, word_toNat]
  simp only [BitVec.toNat_ofNat]
  omega

/-! ### Lists of entries (R184) -/

theorem parseFields_encode (fs : List FieldEntry) :
    parseFields (fs.flatMap (fun e => e.number :: u16 e.value.toNat)) = some fs := by
  induction fs with
  | nil => rfl
  | cons e fs ih =>
    simp only [List.flatMap_cons, u16, List.cons_append, List.nil_append] at ih ⊢
    rw [parseFields, ih, word_u16]
    rfl

theorem parseUnits_encode (us : List RawUnit) :
    parseUnits (us.flatMap (fun r => r.kind :: u16 r.value.toNat)) = some us := by
  induction us with
  | nil => rfl
  | cons r us ih =>
    simp only [List.flatMap_cons, u16, List.cons_append, List.nil_append] at ih ⊢
    rw [parseUnits, ih, word_u16]
    rfl

theorem encode_parseFields {body : Bytes} {fs : List FieldEntry} (h : parseFields body = some fs) :
    fs.flatMap (fun e => e.number :: u16 e.value.toNat) = body := by
  induction body using parseFields.induct generalizing fs with
  | case1 => cases h; rfl
  | case2 n a b rest ih =>
    obtain ⟨gs, hg, rfl⟩ := Option.map_eq_some_iff.1 h
    rw [List.flatMap_cons, ih hg, u16_word]
    rfl
  | case3 => simp_all [parseFields]

theorem encode_parseUnits {body : Bytes} {us : List RawUnit} (h : parseUnits body = some us) :
    us.flatMap (fun r => r.kind :: u16 r.value.toNat) = body := by
  induction body using parseUnits.induct generalizing us with
  | case1 => cases h; rfl
  | case2 n a b rest ih =>
    obtain ⟨gs, hg, rfl⟩ := Option.map_eq_some_iff.1 h
    rw [List.flatMap_cons, ih hg, u16_word]
    rfl
  | case3 => simp_all [parseUnits]

/-! ### The bodies of the orders (R185) -/

theorem emptyBody_ok {o p : Order} {body : Bytes} (h : emptyBody o body = .ok p) : body = [] ∧ p = o := by
  cases body with
  | nil => exact ⟨rfl, (Except.ok.inj h).symm⟩
  | cons => cases h

theorem oneByte_ok {f : Byte → Order} {p : Order} {body : Bytes} (h : oneByte f body = .ok p) : ∃ b, body = [b] ∧ p = f b := by
  unfold oneByte at h
  split at h
  · exact ⟨_, rfl, (Except.ok.inj h).symm⟩
  · cases h

theorem orForm_ok {α : Type} {f : α → Order} {p : Order} {x : Option α} (h : orForm (x.map f) = .ok p) : ∃ a, x = some a ∧ p = f a := by
  cases x with
  | none => cases h
  | some a => exact ⟨a, rfl, (Except.ok.inj h).symm⟩

theorem decodeOrder_encode (o : Order) : decodeOrder o.kind o.body = .ok o := by
  cases o with
  | copy us => exact congrArg (fun x => orForm (x.map Order.copy)) (parseUnits_encode us)
  | channelSet fs => exact congrArg (fun x => orForm (x.map Order.channelSet)) (parseFields_encode fs)
  | fetchSet fs => exact congrArg (fun x => orForm (x.map Order.fetchSet)) (parseFields_encode fs)
  | exposeSet fs => exact congrArg (fun x => orForm (x.map Order.exposeSet)) (parseFields_encode fs)
  | column top =>
    obtain ⟨a, b, c, d, e, rfl⟩ := words_u32 top
    change decodeOrder 0x12 (u32 _) = _
    rw [e]
    rfl
  | faceDefine f b n => exact congrArg₂ (fun x y => Except.ok (Order.faceDefine f x y)) (word_u16 b) (word_u16 n)
  | storeWrite p o d => exact congrArg₂ (fun x y => Except.ok (Order.storeWrite x y d)) (word_u16 p) (word_u16 o)
  | storeBlank f l d => exact congrArg₂ (fun x y => Except.ok (Order.storeBlank x y d)) (word_u16 f) (word_u16 l)
  | storeRead p o n =>
    refine (congrArg₂ (fun x y => Except.ok (Order.storeRead x y _)) (word_u16 p) (word_u16 o)).trans ?_
    exact congrArg (fun x => Except.ok (Order.storeRead p o x)) (word_u16 n)
  | _ => rfl

theorem decodeOrder_ok {kind : Byte} {body : Bytes} {o : Order} (h : decodeOrder kind body = .ok o) : o.kind = kind ∧ o.body = body := by
  have kindIs {k : Byte} (hk : kind.toNat = k.toNat) : k = kind := (BitVec.eq_of_toNat_eq hk).symm
  have empty {p : Order} (h : emptyBody p body = .ok o) (hp : p.body = []) (hk : kind.toNat = p.kind.toNat) : o.kind = kind ∧ o.body = body := by
    obtain ⟨rfl, rfl⟩ := emptyBody_ok h
    exact ⟨kindIs hk, hp⟩
  have one {f : Byte → Order} (h : oneByte f body = .ok o) (hp : ∀ b, (f b).body = [b]) (hk : ∀ b, kind.toNat = (f b).kind.toNat) :
      o.kind = kind ∧ o.body = body := by
    obtain ⟨b, rfl, rfl⟩ := oneByte_ok h
    exact ⟨kindIs (hk b), hp b⟩
  have entries {f : List FieldEntry → Order} (h : orForm ((parseFields body).map f) = .ok o)
      (hp : ∀ fs, (f fs).body = fs.flatMap (fun e => e.number :: u16 e.value.toNat)) (hk : ∀ fs, kind.toNat = (f fs).kind.toNat) : o.kind = kind ∧ o.body = body := by
    obtain ⟨fs, hf, rfl⟩ := orForm_ok h
    exact ⟨kindIs (hk fs), (hp fs).trans (encode_parseFields hf)⟩
  unfold decodeOrder at h
  split at h
  case h_1 hk =>
    obtain ⟨us, hu, rfl⟩ := orForm_ok h
    exact ⟨kindIs hk, encode_parseUnits hu⟩
  case h_2 hk => exact entries h (fun _ => rfl) (fun _ => hk)
  case h_12 hk => exact entries h (fun _ => rfl) (fun _ => hk)
  case h_23 hk => exact entries h (fun _ => rfl) (fun _ => hk)
  case h_8 hk => exact one h (fun _ => rfl) (fun _ => hk)
  case h_10 hk => exact one h (fun _ => rfl) (fun _ => hk)
  case h_11 hk => exact one h (fun _ => rfl) (fun _ => hk)
  case h_14 hk => exact one h (fun _ => rfl) (fun _ => hk)
  case h_3 hk =>
    split at h <;> cases h
    exact ⟨kindIs hk, u32_words _ _ _ _⟩
  case h_7 hk =>
    split at h <;> cases h
    exact ⟨kindIs hk, by rw [Order.body, u16_word, u16_word]; rfl⟩
  case h_13 hk =>
    split at h <;> cases h
    exact ⟨kindIs hk, by rw [Order.body, u16_word, u16_word]; rfl⟩
  case h_15 hk =>
    split at h <;> cases h
    exact ⟨kindIs hk, by rw [Order.body, u16_word, u16_word]; rfl⟩
  case h_16 hk =>
    split at h <;> cases h
    exact ⟨kindIs hk, by rw [Order.body, u16_word, u16_word, u16_word]; rfl⟩
  case h_17 hk =>
    split at h <;> cases h
    exact ⟨kindIs hk, rfl⟩
  case h_20 hk =>
    split at h <;> cases h
    exact ⟨kindIs hk, rfl⟩
  case h_30 => cases h
  all_goals exact empty h rfl (by assumption)

/-- Settles O2. -/
theorem orderBodiesDecodeAndEncode : Obligations.OrderBodiesDecodeAndEncode :=
  ⟨decodeOrder_encode, fun _ _ _ h => decodeOrder_ok h⟩

/-! ### Orders on a free link (R173, R174) -/

/-- On a free link an order that passes the link's tests is acted on and answered. -/
theorem exec_order_acts {i : Instr} {tag target : Byte} {o : Order} {s : State} (hi : orderOf i = some (tag, target, o)) (hs : s.linkFree)
    (hform : o.formOk = true) (htarget : o.targetOk target = true) :
    exec i s = .next (State.answer (o.act tag target (s.inHand ⟨o.kind, tag, target⟩)).2
      (o.act tag target (s.inHand ⟨o.kind, tag, target⟩)).1).settle := by
  rw [exec_order hi, State.giveOrder_acts hs hform tag htarget]

/-- What the owning block does to a state and answers is what the order does on a free link, the order being in hand meanwhile. -/
theorem exec_order_answers (o : Order) {i : Instr} {tag target : Byte} {s t : State} {r : Reply} (hi : orderOf i = some (tag, target, o))
    (hs : s.linkFree) (hform : o.formOk = true) (htarget : o.targetOk target = true)
    (hact : o.act tag target (s.inHand ⟨o.kind, tag, target⟩) = (t.inHand ⟨o.kind, tag, target⟩, r)) :
    exec i s = .next (t.answered o.kind tag target r) := by
  rw [exec_order_acts hi hs hform htarget, hact]
  rfl

theorem formRefusal_eq (k : Byte) : formRefusal k = .refuse .form (if k = 0x10 then 65535 else 0) := by
  unfold formRefusal
  split <;> rfl

/-- Settles O7. -/
theorem orderOnFreeLinkIsActedOn : Obligations.OrderOnFreeLinkIsActedOn := by
  intro i tag target o s hi hs
  refine ⟨fun hok => ?_, fun hbad hb => ?_⟩
  · obtain ⟨hform, htarget⟩ := Bool.and_eq_true_iff.1 hok
    exact exec_order_acts hi hs hform htarget
  · rw [exec_order hi, State.giveOrder_free hs hb, State.takeOrder, if_neg (by simp [hbad]), formRefusal_eq]
    rfl

/-! ### One step (R5, R58) -/

/-- R157: the unit acknowledges bytes before the last of the record being sent. -/
theorem State.unitAcks_spec (s : State) :
    ∃ n k, s.unitAcks = { s with sa := { s.sa with acked := s.sa.acked + n }, serial := k } ∧ (s.sa.lane = [] → n = 0) ∧
      ∀ r rest, s.sa.lane = r :: rest → s.sa.acked < r.bytes.length → s.sa.acked + n < r.bytes.length := by
  obtain ⟨-, e⟩ | ⟨r, rest, n, hl, hn, e⟩ := s.unitAcks_cases
  · exact ⟨0, s.serial, e, fun _ => rfl, fun _ _ _ h => h⟩
  · refine ⟨n, s.serial + 1, e, fun h => ?_, fun q qs h _ => ?_⟩
    · rw [hl] at h
      cases h
    · cases hl.symm.trans h
      exact hn

/-- R176: bytes before the last of the return being sent go out. -/
theorem State.linkSends_spec (s : State) :
    ∃ n k, s.linkSends = { s with olu := { s.olu with sent := s.olu.sent + n }, serial := k } ∧ (s.olu.sending = none → n = 0) ∧
      ∀ r, s.olu.sending = some r → s.olu.sent < r.bytes.length → s.olu.sent + n < r.bytes.length := by
  obtain ⟨-, e⟩ | ⟨r, n, hr, hn, e⟩ := s.linkSends_cases
  · exact ⟨0, s.serial, e, fun _ => rfl, fun _ _ h => h⟩
  · refine ⟨n, s.serial + 1, e, fun h => ?_, fun q h _ => ?_⟩
    · rw [hr] at h
      cases h
    · cases hr.symm.trans h
      exact hn

/-- Settles O1. -/
theorem stepRunsFrontCommand : Obligations.StepRunsFrontCommand := by
  refine ⟨fun s c rest h => ?_, fun s h => ⟨s.readNext_frame, ?_⟩⟩
  · unfold step
    rw [h]
  · obtain ⟨acks, k, ha, hidle, hlane⟩ := s.readNext.unitAcks_spec
    obtain ⟨sends, j, hb, hfree, hsending⟩ := s.readNext.unitAcks.linkSends_spec
    rw [State.readNext_sa] at ha hidle hlane
    have holu : s.readNext.olu = s.olu := s.readNext_touches.olu (by decide)
    rw [State.unitAcks_olu, holu] at hb hfree hsending
    rw [ha] at hb
    refine ⟨acks, sends, j, _, ?_, rfl, fun hl => ⟨hidle hl, ?_⟩, fun r rest hl hr => ⟨hlane r rest hl hr, ?_, ?_⟩,
      fun hn => ⟨hfree hn, Olu.txByte_idle hn⟩, fun r hr hn => ⟨hsending r hr hn, Olu.txByte_some hr⟩⟩
    · unfold step
      rw [h]
      exact congrArg Host.Outcome.next (ha ▸ hb)
    · have hp : Sa.presented { s.sa with acked := s.sa.acked + acks } = none := Sa.presented_idle hl
      exact congrArg Option.isSome hp
    · have hp : Sa.presented { s.sa with acked := s.sa.acked + acks } = r.bytes[s.sa.acked + acks]? := Sa.presented_cons hl
      refine (congrArg Option.isSome hp).trans ?_
      rw [List.getElem?_eq_getElem (hlane r rest hl hr)]
      rfl
    · exact Sa.presented_cons hl

end Sys2Proof.Machine
end


section
/-! PROOF. Frames: what the receiver makes of the bytes of a header and of a whole frame (R168 to R171), and the dispatcher's tests (R173, R174). -/

namespace Sys2Proof.Machine

/-! ### Bytes of a header (R168 to R170) -/

theorem Olu.rxByte_waiting {o : Olu} (hp : o.phase = .running) (hr : o.receiver = .waiting) (now : Nat) (b : Byte) :
    o.rxByte now b = if b = startByte then { o with receiver := .header [] } else o := by
  unfold Olu.rxByte
  rw [if_neg (by simp [hp]), hr]

theorem Olu.rxByte_header {o : Olu} {got : Bytes} (hp : o.phase = .running) (hr : o.receiver = .header got) (now : Nat) (b : Byte) :
    o.rxByte now b = if (got ++ [b]).length < 6 then { o with receiver := .header (got ++ [b]) }
      else if headerPasses (got ++ [b]) && o.storeFree then o.takeHeader (got ++ [b]) else o.huntOn (got ++ [b]) := by
  unfold Olu.rxByte
  rw [if_neg (by simp [hp]), hr]

theorem Olu.rxByte_body {o : Olu} {kind tag target : Byte} {len : Nat} {got : Bytes} (hp : o.phase = .running)
    (hr : o.receiver = .body kind tag target len got) (now : Nat) (b : Byte) :
    o.rxByte now b = if (got ++ [b]).length < len + 2 then { o with receiver := .body kind tag target len (got ++ [b]) }
      else o.takeBody kind tag target len (got ++ [b]) now := by
  unfold Olu.rxByte
  rw [if_neg (by simp [hp]), hr]

theorem Olu.rxByte_hunting {o : Olu} {buf : Bytes} (hp : o.phase = .running) (hr : o.receiver = .hunting buf) (now : Nat) (b : Byte) :
    o.rxByte now b = o.huntOn (buf ++ [b]) := by
  unfold Olu.rxByte
  rw [if_neg (by simp [hp]), hr]

/-- Fewer bytes than a start byte and a header are searched in vain. -/
theorem hunt_short (free : Bool) : ∀ {bs : Bytes}, bs.length ≤ 6 → ∃ rest, hunt free bs = .error rest
  | [], _ => ⟨[], rfl⟩
  | b :: rest, h => by
    have hl : rest.length < 6 := by simpa [Nat.succ_le_iff] using h
    unfold hunt
    split
    · exact hunt_short free hl.le
    · exact ⟨_, rfl⟩

/-- A start byte begins a candidate, which is kept until its sixth byte comes. -/
theorem hunt_start_short (free : Bool) {bs : Bytes} (h : bs.length < 6) : hunt free (startByte :: bs) = .error (startByte :: bs) := by
  unfold hunt
  rw [if_neg (by simp), if_pos h]

theorem Olu.huntOn_short (o : Olu) {bs : Bytes} (h : bs.length ≤ 6) : ∃ rest, o.huntOn bs = { o with receiver := .hunting rest } := by
  obtain ⟨rest, e⟩ := hunt_short (Olu.storeFree { o with receiver := .waiting }) h
  exact ⟨rest, by simp [Olu.huntOn, e]⟩

theorem Olu.huntOn_start_short (o : Olu) {bs : Bytes} (h : bs.length < 6) :
    o.huntOn (startByte :: bs) = { o with receiver := .hunting (startByte :: bs) } := by
  have e := hunt_start_short (Olu.storeFree { o with receiver := .waiting }) h
  simp [Olu.huntOn, e]

/-- A start byte and six bytes found in a hunt: a good header is taken, and otherwise the hunt goes on. -/
theorem Olu.huntOn_candidate (o : Olu) {six : Bytes} (h : six.length = 6) :
    (headerPasses six && Olu.storeFree { o with receiver := .waiting }) = true ∧
        o.huntOn (startByte :: six) = Olu.takeHeader six { o with receiver := .waiting } ∨
      (headerPasses six && Olu.storeFree { o with receiver := .waiting }) = false ∧
        ∃ rest, o.huntOn (startByte :: six) = { o with receiver := .hunting rest } := by
  have htake : six.take 6 = six := List.take_of_length_le h.le
  have hstep : hunt (Olu.storeFree { o with receiver := .waiting }) (startByte :: six) =
      if headerPasses six && Olu.storeFree { o with receiver := .waiting } then .ok six
      else hunt (Olu.storeFree { o with receiver := .waiting }) six := by
    rw [hunt, if_neg (by simp), if_neg (by omega), htake]
  unfold Olu.huntOn
  dsimp only
  rw [hstep]
  cases hc : headerPasses six && Olu.storeFree { o with receiver := .waiting } with
  | true => exact .inl ⟨rfl, rfl⟩
  | false =>
    obtain ⟨rest, e⟩ := hunt_short (Olu.storeFree { o with receiver := .waiting }) (bs := six) h.le
    rw [if_neg (by decide), e]
    exact .inr ⟨rfl, rest, rfl⟩

/-- The header's bytes gather until the sixth comes. -/
theorem Olu.rxBytes_gather {o : Olu} (hp : o.phase = .running) (now : Nat) (bs : Bytes) :
    ∀ {got : Bytes}, (got ++ bs).length < 6 →
      bs.foldl (Olu.rxByte now) { o with receiver := .header got } = { o with receiver := .header (got ++ bs) } := by
  induction bs with
  | nil => intro got _; rw [List.append_nil]; rfl
  | cons b bs ih =>
    intro got h
    have hb : (got ++ [b]).length < 6 := by simp at h ⊢; omega
    rw [List.foldl_cons, Olu.rxByte_header (o := { o with receiver := .header got }) hp rfl, if_pos hb]
    exact (ih (by simpa using h)).trans (by rw [List.append_assoc]; rfl)

/-- A candidate's bytes gather until the sixth comes. -/
theorem Olu.rxBytes_candidate {o : Olu} (hp : o.phase = .running) (now : Nat) (bs : Bytes) :
    ∀ {got : Bytes}, (got ++ bs).length < 6 →
      bs.foldl (Olu.rxByte now) { o with receiver := .hunting (startByte :: got) } = { o with receiver := .hunting (startByte :: (got ++ bs)) } := by
  induction bs with
  | nil => intro got _; rw [List.append_nil]; rfl
  | cons b bs ih =>
    intro got h
    have hb : (got ++ [b]).length < 6 := by simp at h ⊢; omega
    rw [List.foldl_cons, Olu.rxByte_hunting (o := { o with receiver := .hunting (startByte :: got) }) hp rfl, List.cons_append,
      Olu.huntOn_start_short _ hb]
    exact (ih (by simpa using h)).trans (by rw [List.append_assoc]; rfl)

/-- A receiver that waits, or hunts with nothing in hand. -/
def Receiver.isOpen (r : Receiver) : Prop := r = .waiting ∨ r = .hunting []

theorem Olu.takeHeader_receiver (six : Bytes) (r : Receiver) (o : Olu) : Olu.takeHeader six { o with receiver := r } = o.takeHeader six := by
  rfl

theorem Olu.storeFree_receiver {o : Olu} {r : Receiver} (h : o.receiver.takesStore = false) (hr : r.takesStore = false) :
    Olu.storeFree { o with receiver := r } = o.storeFree := by
  unfold Olu.storeFree
  rw [Olu.storesOccupied_eq, Olu.storesOccupied_eq o, h, hr]
  rfl

/-- A start byte and six bytes: a good header is taken when a frame store is free, and otherwise the receiver hunts. -/
theorem Olu.rxBytes_header {o : Olu} (hp : o.phase = .running) (hr : o.receiver.isOpen) (now : Nat) {six : Bytes} (h6 : six.length = 6) :
    ((headerPasses six && o.storeFree) = true ∧ (startByte :: six).foldl (Olu.rxByte now) o = o.takeHeader six) ∨
      ((headerPasses six && o.storeFree) = false ∧
        ∃ rest, (startByte :: six).foldl (Olu.rxByte now) o = { o with receiver := .hunting rest }) := by
  obtain ⟨five, f, rfl⟩ : ∃ five f, six = five ++ [f] := ⟨_, _, (List.dropLast_concat_getLast (by intro e; simp [e] at h6)).symm⟩
  have h5 : five.length = 5 := by simpa using h6
  have hfive : ([] ++ five).length < 6 := by simp [h5]
  have hs : o.receiver.takesStore = false := by obtain e | e := hr <;> rw [e] <;> rfl
  rw [List.foldl_cons, List.foldl_append]
  obtain hr | hr := hr
  · rw [Olu.rxByte_waiting hp hr, if_pos rfl, Olu.rxBytes_gather hp now five hfive, List.nil_append, List.foldl_cons, List.foldl_nil,
      Olu.rxByte_header (o := { o with receiver := .header five }) hp rfl, if_neg (by simp [h5]),
      Olu.storeFree_receiver hs (r := .header five) rfl]
    cases hc : headerPasses (five ++ [f]) && o.storeFree with
    | true => exact .inl ⟨rfl, Olu.takeHeader_receiver _ _ o⟩
    | false =>
      obtain ⟨rest, e⟩ := Olu.huntOn_short { o with receiver := .header five } h6.le
      exact .inr ⟨rfl, rest, e⟩
  · have hstart : o.rxByte now startByte = { o with receiver := .hunting [startByte] } := by
      rw [Olu.rxByte_hunting hp hr]
      exact o.huntOn_start_short (bs := []) (by decide)
    rw [hstart, Olu.rxBytes_candidate hp now five hfive, List.nil_append, List.foldl_cons, List.foldl_nil,
      Olu.rxByte_hunting (o := { o with receiver := .hunting (startByte :: five) }) hp rfl]
    have hc := Olu.huntOn_candidate { o with receiver := .hunting (startByte :: five) } h6
    rw [Olu.storeFree_receiver (r := .waiting) (o := { o with receiver := .hunting (startByte :: five) }) rfl rfl,
      Olu.storeFree_receiver hs (r := .hunting (startByte :: five)) rfl] at hc
    obtain ⟨h1, h2⟩ | ⟨h1, rest, h2⟩ := hc
    · exact .inl ⟨h1, h2.trans (Olu.takeHeader_receiver _ _ _)⟩
    · exact .inr ⟨h1, rest, h2⟩

/-- R168: the six bytes make a good header. -/
theorem headerPasses_iff (kind tag target hi lo check : Byte) :
    headerPasses [kind, tag, target, hi, lo, check] = true ↔ kind + tag + target + hi + lo + check = 0 ∧ (word hi lo).toNat ≤ 1536 := by
  simp [headerPasses]

/-- Settles O4. -/
theorem headerOpensBodyOrHunt : Obligations.HeaderOpensBodyOrHunt := by
  intro s kind tag target hi lo check hp hr six len good
  have hgood : (headerPasses six && s.olu.storeFree) = true ↔ good := by
    rw [Bool.and_eq_true, headerPasses_iff, Olu.storeFree, decide_eq_true_eq, and_assoc]
  have run (c : Instr) (hc : c ∈ [Instr.headerReceived (startByte :: six), Instr.huntCandidate (startByte :: six)]) :
      exec c s = .next ({ s with olu := (startByte :: six).foldl (Olu.rxByte s.time) s.olu } : State).settle := by
    obtain rfl | rfl : c = _ ∨ c = _ := by simpa using hc
    · rfl
    · rfl
  obtain ⟨hy, e⟩ | ⟨hn, rest, e⟩ := s.olu.rxBytes_header hp hr s.time (six := six) rfl
  · refine ⟨fun _ hlen c hc => ?_, fun _ hlen c hc => ?_, fun h => absurd (hgood.1 hy) h⟩
    · rw [run c hc, e]
      exact congrArg (fun o => Host.Outcome.next (State.settle { s with olu := o })) (if_neg hlen.ne')
    · rw [run c hc, e]
      exact congrArg (fun o => Host.Outcome.next (State.settle { s with olu := o })) (if_pos hlen)
  · have hbad : ¬ good := fun h => by
      rw [hgood.2 h] at hn
      cases hn
    refine ⟨fun h => absurd h hbad, fun h => absurd h hbad, fun _ c hc => ⟨rest, ?_⟩⟩
    rw [run c hc, e]

/-! ### A whole frame (R168, R169) -/

/-- A body's bytes gather until the second of its check comes. -/
theorem Olu.rxBytes_body {o : Olu} (hp : o.phase = .running) (now : Nat) (kind tag target : Byte) (len : Nat) (bs : Bytes) :
    ∀ {got : Bytes}, (got ++ bs).length < len + 2 →
      bs.foldl (Olu.rxByte now) { o with receiver := .body kind tag target len got } =
        { o with receiver := .body kind tag target len (got ++ bs) } := by
  induction bs with
  | nil => intro got _; rw [List.append_nil]; rfl
  | cons b bs ih =>
    intro got h
    have hb : (got ++ [b]).length < len + 2 := by simp at h ⊢; omega
    rw [List.foldl_cons, Olu.rxByte_body (o := { o with receiver := .body kind tag target len got }) hp rfl, if_pos hb]
    exact (ih (by simpa using h)).trans (by rw [List.append_assoc]; rfl)

/-- R168: the header check of a return makes its header good. -/
theorem headerCheck_sum (a b c d e : Byte) : a + b + c + d + e + headerCheck [a, b, c, d, e] = 0 := by
  simp [headerCheck]

/-- The bytes of a good frame leave it waiting for the dispatcher. -/
theorem Olu.rxBytes_frame {o : Olu} (hp : o.phase = .running) (hr : o.receiver = .waiting) (hs : o.storesOccupied < 2) (now : Nat)
    (kind tag target : Byte) {body : Bytes} (hb : body.length ≤ 1536) :
    (Return.bytes ⟨kind, tag, target, body⟩).foldl (Olu.rxByte now) o = { o with frames := o.frames ++ [⟨kind, tag, target, body, true⟩] } := by
  obtain ⟨hi, lo, hlen⟩ : ∃ hi lo, u16 body.length = [hi, lo] := ⟨_, _, rfl⟩
  have hword : (word hi lo).toNat = body.length := by
    cases hlen
    rw [word_toNat, BitVec.toNat_ofNat, BitVec.toNat_ofNat]
    omega
  have hfive : Return.bytes ⟨kind, tag, target, body⟩ =
      (startByte :: [kind, tag, target, hi, lo, headerCheck [kind, tag, target, hi, lo]]) ++ (body ++ u16 (bodyCheck body).toNat) := by
    simp [Return.bytes, hlen, startByte]
  have hpass : (headerPasses [kind, tag, target, hi, lo, headerCheck [kind, tag, target, hi, lo]] && o.storeFree) = true := by
    rw [Bool.and_eq_true, headerPasses_iff, Olu.storeFree, decide_eq_true_eq, hword]
    exact ⟨⟨headerCheck_sum _ _ _ _ _, hb⟩, hs⟩
  have hhead : (startByte :: [kind, tag, target, hi, lo, headerCheck [kind, tag, target, hi, lo]]).foldl (Olu.rxByte now) o =
      o.takeHeader [kind, tag, target, hi, lo, headerCheck [kind, tag, target, hi, lo]] := by
    obtain ⟨-, e⟩ | ⟨hn, -⟩ := o.rxBytes_header hp (.inl hr) now (six := [kind, tag, target, hi, lo, headerCheck [kind, tag, target, hi, lo]]) rfl
    · exact e
    · rw [hpass] at hn
      cases hn
  rw [hfive, List.foldl_append, hhead]
  have htake : o.takeHeader [kind, tag, target, hi, lo, headerCheck [kind, tag, target, hi, lo]] =
      if body.length = 0 then { o with receiver := .waiting, frames := o.frames ++ [⟨kind, tag, target, [], true⟩] }
      else { o with receiver := .body kind tag target body.length [] } := by
    rw [← hword]
    rfl
  rw [htake]
  obtain ⟨c, d, hcheck⟩ : ∃ c d, u16 (bodyCheck body).toNat = [c, d] := ⟨_, _, rfl⟩
  split
  · next h0 =>
    obtain rfl := List.eq_nil_of_length_eq_zero h0
    have hno : ∀ b ∈ u16 (bodyCheck []).toNat, b ≠ startByte := by decide
    rw [hcheck] at hno ⊢
    have hc := hno c (by simp)
    have hd := hno d (by simp)
    have drop (b : Byte) (hb : b ≠ startByte) (fs : List Frame) :
        Olu.rxByte now { o with receiver := .waiting, frames := fs } b = { o with receiver := .waiting, frames := fs } := by
      rw [Olu.rxByte_waiting (o := { o with receiver := .waiting, frames := fs }) hp rfl, if_neg hb]
    rw [List.nil_append, List.foldl_cons, List.foldl_cons, List.foldl_nil, drop c hc, drop d hd, hr]
  · have hgot : ([] ++ (body ++ [c])).length < body.length + 2 := by simp
    rw [hcheck, ← List.singleton_append, ← List.append_assoc, List.foldl_append, Olu.rxBytes_body hp now _ _ _ _ _ hgot,
      List.nil_append, List.foldl_cons, List.foldl_nil,
      Olu.rxByte_body (o := { o with receiver := .body kind tag target body.length (body ++ [c]) }) hp rfl, if_neg (by simp)]
    simp [Olu.takeBody, hcheck, hr]

/-- Settles O3. -/
theorem goodFrameIsTakenWhole : Obligations.GoodFrameIsTakenWhole := by
  intro s kind tag target body hp hr hs hb
  exact congrArg (fun o => Host.Outcome.next (State.settle { s with olu := o })) (Olu.rxBytes_frame hp hr hs s.time kind tag target hb)

/-- Settles O5. -/
theorem bodyFailureStartsAttentionPulse : Obligations.BodyFailureStartsAttentionPulse := by
  refine ⟨fun s kind tag target len got b hp hr hl hbad => ?_, fun s d hd => ?_⟩
  · have hrx : s.olu.rxByte s.time b = { s.olu with
        receiver := .waiting, frames := s.olu.frames ++ [⟨kind, tag, target, (got ++ [b]).take len, false⟩], pulse := some (s.time + 10) } := by
      have hok : (u16 (bodyCheck ((got ++ [b]).take len)).toNat == (got ++ [b]).drop len) = false := beq_false_of_ne hbad
      rw [Olu.rxByte_body hp hr, if_neg (by simp [hl]), Olu.takeBody]
      dsimp only
      rw [hok]
      rfl
    exact congrArg (fun o => Host.Outcome.next (State.settle { s with olu := o })) hrx
  · simp only [exec, execAttentionPulseExpiry, hd]

/-- Settles O8. -/
theorem orderCommandIsItsFrame : Obligations.OrderCommandIsItsFrame := by
  intro i tag target o s hi hp hr hs hb hwait
  have hcan : s.canTake o = true := by simp [State.canTake, Olu.storeFree, hp, hr, hs, hb]
  rw [exec_order hi, State.giveOrder_waits hcan hwait, orderBytes, goodFrameIsTakenWhole s o.kind tag target o.body hp hr hs hb]

/-! ### The dispatcher (R173, R174) -/

/-- R174: the dispatcher takes the oldest waiting frame. -/
theorem execDispatch_takes {s : State} {f : Frame} {rest : List Frame} (hp : s.olu.phase = .running) (hn : s.olu.inHand = none)
    (hf : s.olu.frames = f :: rest) : exec .dispatch s = .next (State.takeFrame f { s with olu := { s.olu with frames := rest } }).settle := by
  simp only [exec, execDispatch, hp, hn, hf]

theorem State.takeFrame_unchecked {s : State} {f : Frame} (h : f.checkOk = false) :
    s.takeFrame f = (s.inHand ⟨f.kind, f.tag, f.target⟩).answer (.refuse .check 0) := if_pos h

theorem State.takeFrame_checked {s : State} {f : Frame} (h : f.checkOk = true) :
    s.takeFrame f = match decodeOrder f.kind f.body with
      | .ok o => s.takeOrder ⟨f.kind, f.tag, f.target⟩ o
      | .error .unknown => (s.inHand ⟨f.kind, f.tag, f.target⟩).answer (.no .unknown)
      | .error .form => (s.inHand ⟨f.kind, f.tag, f.target⟩).answer (formRefusal f.kind) := if_neg (by simp [h])

/-- Settles O6. -/
theorem dispatchTestsTheOldestFrame : Obligations.DispatchTestsTheOldestFrame := by
  intro s f rest hp hn hf t form
  rw [execDispatch_takes hp hn hf]
  refine ⟨fun h => ?_, fun h hd => ?_, fun h hd => ?_, fun o h hd hbad => ?_, fun o h hd hok => ?_⟩
  · rw [State.takeFrame_unchecked h]
    rfl
  · rw [State.takeFrame_checked h, hd]
    rfl
  · rw [State.takeFrame_checked h, hd, formRefusal_eq]
    rfl
  · rw [State.takeFrame_checked h, hd]
    dsimp only
    rw [State.takeOrder, if_neg (by simp [hbad]), formRefusal_eq]
    rfl
  · rw [State.takeFrame_checked h, hd]
    dsimp only
    rw [State.takeOrder, if_pos hok]

end Sys2Proof.Machine
end


section
/-! PROOF. The channel orders COPY, CHANNEL_SET, COLUMN and RELEASE (R59 to R61, R65, R71), and the inquiries (R23, R72, R135, R152, R178). -/

namespace Sys2Proof.Machine

/-! ### The channel of a target (R185) -/

theorem channelOf_chByte (c : Fin 4) : channelOf (chByte c) = some c := by
  revert c
  decide

theorem channelOf_none {target : Byte} (h : 4 ≤ target.toNat) : channelOf target = none := dif_neg (Nat.not_lt.2 h)

theorem channelOf_lt {target : Byte} (h : target.toNat < 4) : channelOf target = some ⟨target.toNat, h⟩ := dif_pos h

/-- R67: the eligibility test of a channel. -/
theorem Channel.testState_eq (x : Channel) : x.testState = eligibility x.buffer := by
  simp [Channel.testState, Channel.eligible, Channel.hasEnd, eligibility]

/-! ### COPY (R65) -/

theorem actCopy_range {target : Byte} (h : 4 ≤ target.toNat) (tag : Byte) (units : List RawUnit) (s : State) :
    actCopy tag target units s = (s, .refuse .range 0) := by
  simp [actCopy, channelOf_none h, Reply.no]

theorem actCopy_form {target : Byte} (h : target.toNat < 4) (tag : Byte) {units : List RawUnit} {i : Nat} (hu : decodeUnits 0 units = .error i)
    (s : State) : actCopy tag target units s = (s, .refuse .form i) := by
  simp [actCopy, channelOf_lt h, hu]

theorem actCopy_held {c : Fin 4} {why : HeldReason} {s : State} (h : s.ch[c].state = .held why) (tag : Byte) {units : List RawUnit}
    {us : List CopyUnit} (hu : decodeUnits 0 units = .ok us) : actCopy tag (chByte c) units s = (s, .refuse .state 0) := by
  unfold actCopy
  rw [channelOf_chByte]
  dsimp only
  rw [hu]
  dsimp only
  rw [h]
  rfl

/-- R65: past the tests of channel, form and state the room decides. -/
theorem actCopy_room {c : Fin 4} {s : State} (h : ∀ why, s.ch[c].state ≠ .held why) (tag : Byte) {units : List RawUnit}
    {us : List CopyUnit} (hu : decodeUnits 0 units = .ok us) :
    actCopy tag (chByte c) units s = if s.ch[c].free < us.length then (s, .refuse .full s.ch[c].free)
      else (s.setCh c (s.ch[c].append tag us), .accept (u16 (s.ch[c].append tag us).free ++ u32 s.ch[c].nextIndex.toNat)) := by
  unfold actCopy
  rw [channelOf_chByte]
  dsimp only
  rw [hu]
  dsimp only
  split
  · next e => exact absurd e (h _)
  · rfl

theorem actCopy_full {c : Fin 4} {s : State} (h : ∀ why, s.ch[c].state ≠ .held why) (tag : Byte) {units : List RawUnit}
    {us : List CopyUnit} (hu : decodeUnits 0 units = .ok us) (hroom : s.ch[c].free < us.length) :
    actCopy tag (chByte c) units s = (s, .refuse .full s.ch[c].free) := (actCopy_room h tag hu).trans (if_pos hroom)

theorem actCopy_appends {c : Fin 4} {s : State} (h : ∀ why, s.ch[c].state ≠ .held why) (tag : Byte) {units : List RawUnit}
    {us : List CopyUnit} (hu : decodeUnits 0 units = .ok us) (hroom : us.length ≤ s.ch[c].free) :
    actCopy tag (chByte c) units s =
      (s.setCh c (s.ch[c].append tag us), .accept (u16 (s.ch[c].append tag us).free ++ u32 s.ch[c].nextIndex.toNat)) :=
  (actCopy_room h tag hu).trans (if_neg (Nat.not_lt.2 hroom))

theorem Channel.append_eq (x : Channel) (tag : Byte) (us : List CopyUnit) :
    x.append tag us = { x with
      buffer := x.buffer ++ us.map (fun u => ⟨u, tag⟩)
      state := if x.state = .idle then eligibility (x.buffer ++ us.map (fun u => ⟨u, tag⟩)) else x.state } := by
  unfold Channel.append
  split <;> simp [Channel.retest, Channel.testState_eq]

/-- The form of a COPY of 1 to 512 units is good. -/
theorem Order.copy_formOk {units : List RawUnit} (h1 : 1 ≤ units.length) (h2 : units.length ≤ 512) : (Order.copy units).formOk = true := by
  simp [Order.formOk, h1, h2]

/-- Settles O9. -/
theorem copyAppendsItsUnits : Obligations.CopyAppendsItsUnits := by
  intro s tag c units us hs h1 h2 hu hheld hroom buffer
  have hact := actCopy_appends (s := s.inHand ⟨0x10, tag, chByte c⟩) hheld tag hu hroom
  rw [Channel.append_eq] at hact
  exact exec_order_answers (.copy _) rfl hs (Order.copy_formOk h1 h2) rfl hact

/-- Settles O10. -/
theorem copyRefusedAppendsNothing : Obligations.CopyRefusedAppendsNothing := by
  intro s tag target units hs h1 h2
  have hform := Order.copy_formOk h1 h2
  refine ⟨fun h => ?range, fun i h hu => ?form, fun c us why ht hu hheld => ?held, fun c us ht hu hheld hroom => ?full⟩
  case range => exact exec_order_answers (.copy _) rfl hs hform rfl (actCopy_range h tag units _)
  case form => exact exec_order_answers (.copy _) rfl hs hform rfl (actCopy_form h tag hu _)
  case held =>
    subst ht
    exact exec_order_answers (.copy _) rfl hs hform rfl (actCopy_held (s := s.inHand ⟨0x10, tag, chByte c⟩) hheld tag hu)
  case full =>
    subst ht
    exact exec_order_answers (.copy _) rfl hs hform rfl (actCopy_full (s := s.inHand ⟨0x10, tag, chByte c⟩) hheld tag hu hroom)

/-! ### CHANNEL_SET (R59, R60, R6) -/

theorem actChannelSet_range {target : Byte} (h : 4 ≤ target.toNat) (fields : List FieldEntry) (s : State) :
    actChannelSet target fields s = (s, .refuse .range 0) := by
  simp [actChannelSet, channelOf_none h, Reply.no]

theorem actChannelSet_form (c : Fin 4) {fields : List FieldEntry} (h : channelFieldsOk fields = false) (s : State) :
    actChannelSet (chByte c) fields s = (s, .refuse .form 0) := by
  simp [actChannelSet, channelOf_chByte, h, Reply.no]

theorem actChannelSet_pends {c : Fin 4} {fields : List FieldEntry} (h : channelFieldsOk fields = true) {s : State}
    (hc : s.ch[c].state = .composing) :
    actChannelSet (chByte c) fields s =
      (s.setCh c { s.ch[c] with pendSet := gather s.ch[c].pendSet (s.ch[c].writes (namedFields fields)) },
        .accept (u8 1 ++ clampedList (s.ch[c].clampedFields (namedFields fields)))) := by
  unfold actChannelSet
  rw [channelOf_chByte]
  dsimp only
  rw [if_neg (by simp [h]), if_pos hc]

theorem actChannelSet_applies {c : Fin 4} {fields : List FieldEntry} (h : channelFieldsOk fields = true) {s : State}
    (hc : s.ch[c].state ≠ .composing) :
    actChannelSet (chByte c) fields s =
      (s.setCh c (s.ch[c].apply (s.ch[c].writes (namedFields fields))),
        .accept (u8 0 ++ clampedList (s.ch[c].clampedFields (namedFields fields)))) := by
  unfold actChannelSet
  rw [channelOf_chByte]
  dsimp only
  rw [if_neg (by simp [h]), if_neg hc]

/-- R6: a value of a numeric field is clamped into its range. -/
theorem SetField.clamp_toNat {f : SetField} {lo hi : Nat} (hr : f.range = some (lo, hi)) (v : Word) :
    (f.clamp v).toNat = clampNat lo hi v.toNat := by
  have hb : lo ≤ hi ∧ hi < 65536 := by cases f <;> simp [SetField.range] at hr <;> omega
  obtain ⟨-, h2⟩ := clampNat_bounds (v := v.toNat) hb.1
  simp only [SetField.clamp, hr, BitVec.toNat_ofNat]
  omega

theorem clampNat_zero (hi v : Nat) : clampNat 0 hi v = min hi v := by
  unfold clampNat
  split
  · omega
  · split <;> omega

/-- R6: a context with its word spaces put in order. -/
def Context.ordered (c : Context) : Context := { c with wsOpt := max c.wsOpt c.wsMin, wsMax := max c.wsMax (max c.wsOpt c.wsMin) }

theorem Context.ordered_of_le {c : Context} (h1 : c.wsMin ≤ c.wsOpt) (h2 : c.wsOpt ≤ c.wsMax) : c.ordered = c := by
  rw [Context.ordered, max_eq_left h1, max_eq_left h2]

/-- R6: the word spaces raised are put in order, and nothing else changes. -/
theorem Context.writeAll_raised {c : Context} (h1 : c.wsMin ≤ 2000) (h2 : c.wsOpt ≤ 2000) (h3 : c.wsMax ≤ 2000) :
    c.writeAll (raised c) = c.ordered := by
  have opt : (BitVec.ofNat 16 (max c.wsOpt c.wsMin)).toNat = max c.wsOpt c.wsMin := by
    rw [BitVec.toNat_ofNat]; omega
  have mx : (BitVec.ofNat 16 (max c.wsMax (max c.wsOpt c.wsMin))).toNat = max c.wsMax (max c.wsOpt c.wsMin) := by
    rw [BitVec.toNat_ofNat]; omega
  have keepOpt (h : ¬ c.wsOpt < max c.wsOpt c.wsMin) : max c.wsOpt c.wsMin = c.wsOpt := by omega
  have keepMax (h : ¬ c.wsMax < max c.wsMax (max c.wsOpt c.wsMin)) : max c.wsMax (max c.wsOpt c.wsMin) = c.wsMax := by omega
  unfold raised
  dsimp only
  split <;> split <;> simp_all [Context.writeAll, Context.write, Context.ordered]

/-- R6: the writes of one field at once: its clamped value, and the word spaces above it raised. -/
theorem Channel.apply_single {x : Channel} (hx : x.ctx.inRange) (hp : x.pendSet = []) (f : SetField) (v : Word) :
    (x.apply (x.writes [(f, v)])).ctx = (x.ctx.write f (f.clamp v)).ordered := by
  have hb := (hx.bounded).write f v
  have e : x.writes [(f, v)] = (f, f.clamp v) :: raised (x.ctx.write f (f.clamp v)) := by
    simp [Channel.writes, hp, Context.writeAll]
  have h1 := hb .wsMin 0 2000 rfl rfl
  have h2 := hb .wsOpt 0 2000 rfl rfl
  have h3 := hb .wsMax 0 2000 rfl rfl
  rw [e]
  exact Context.writeAll_raised h1.2 h2.2 h3.2

theorem toInt_clampTrack (v : Int) : (BitVec.ofInt 16 (clampTrack v)).toInt = max (-200) (min 200 v) := by
  have h : clampTrack v = max (-200) (min 200 v) := by
    unfold clampTrack clampInt
    split
    · omega
    · split <;> omega
  rw [h, BitVec.toInt_ofInt]
  exact Int.bmod_eq_of_le (by omega) (by omega)

theorem Context.writeAll_raised_measure (c d : Context) : (c.writeAll (raised d)).measure = c.measure := by
  unfold raised
  dsimp only
  split <;> split <;> rfl

/-- Settles O11. -/
theorem channelSetAppliesOrPends : Obligations.ChannelSetAppliesOrPends := by
  intro s tag c fields hs hlen x named names
  have hform {fs : List FieldEntry} (h : fs.length ≤ 18) : (Order.channelSet fs).formOk = true := by simp [Order.formOk, h]
  have applies {fs : List FieldEntry} (h : fs.length ≤ 18) (hok : channelFieldsOk fs = true) (hc : x.state ≠ .composing) :
      exec (.channelSet tag (chByte c) fs) s =
        .next (({ s with ch := setAt s.ch c (x.apply (x.writes (namedFields fs))) } : State).answered 0x11 tag (chByte c)
          (.accept (u8 0 ++ clampedList (x.clampedFields (namedFields fs))))) :=
    exec_order_answers (.channelSet _) rfl hs (hform h) rfl (actChannelSet_applies (s := s.inHand ⟨0x11, tag, chByte c⟩) hok hc)
  refine ⟨fun h => ?_, fun h hc => applies hlen h hc, fun h hc => ?_, fun v hf hc => ?_, fun v hlaw hc => ?_, fun target h => ?_⟩
  · exact exec_order_answers (.channelSet _) rfl hs (hform hlen) rfl (actChannelSet_form c h _)
  · exact exec_order_answers (.channelSet _) rfl hs (hform hlen) rfl (actChannelSet_pends (s := s.inHand ⟨0x11, tag, chByte c⟩) h hc)
  · subst hf
    refine ⟨_, applies (Nat.le_of_ble_eq_true rfl) rfl hc, ?_⟩
    have hmeasure : (x.apply (x.writes [(.measure, v)])).ctx.measure = (SetField.measure.clamp v).toNat :=
      Context.writeAll_raised_measure (x.ctx.write .measure (SetField.measure.clamp v)) _
    simp only [State.answered_ch, setAt_same]
    exact hmeasure.trans (SetField.clamp_toNat rfl v)
  · intro m leaves
    obtain ⟨hx, -, hpend⟩ := hlaw c
    change x.ctx.inRange at hx
    have leave {n : Byte} (f : SetField) {y : Context} (hn : namedFields [⟨n, v⟩] = [(f, v)]) (hok : channelFieldsOk [⟨n, v⟩] = true)
        (hy : (x.ctx.write f (f.clamp v)).ordered = y) : leaves n y := by
      refine ⟨_, applies (Nat.le_of_ble_eq_true rfl) hok hc, ?_⟩
      simp only [State.answered_ch, setAt_same]
      rw [hn]
      exact (Channel.apply_single hx (hpend hc) f v).trans hy
    have number (f : SetField) {lo hi : Nat} (hr : f.range = some (lo, hi)) := SetField.clamp_toNat hr v
    have hws : x.ctx.wsMin ≤ x.ctx.wsOpt ∧ x.ctx.wsOpt ≤ x.ctx.wsMax := by unfold Context.inRange at hx; omega
    have alone {n : Byte} (f : SetField) {y : Context} (hn : namedFields [⟨n, v⟩] = [(f, v)]) (hok : channelFieldsOk [⟨n, v⟩] = true)
        (h1 : (x.ctx.write f (f.clamp v)).wsMin = x.ctx.wsMin) (h2 : (x.ctx.write f (f.clamp v)).wsOpt = x.ctx.wsOpt)
        (h3 : (x.ctx.write f (f.clamp v)).wsMax = x.ctx.wsMax) (hy : x.ctx.write f (f.clamp v) = y) : leaves n y :=
      leave f hn hok ((Context.ordered_of_le (by omega) (by omega)).trans hy)
    have upto (f : SetField) {hi : Nat} (hr : f.range = some (0, hi)) : (f.clamp v).toNat = min hi v.toNat :=
      (number f hr).trans (clampNat_zero _ _)
    have full (f : SetField) (hr : f.range = some (0, 65535)) : (f.clamp v).toNat = v.toNat :=
      (upto f hr).trans (min_eq_right (Nat.le_of_lt_succ v.isLt))
    refine ⟨alone .leading rfl rfl rfl rfl rfl (congrArg (fun k => { x.ctx with leading := k }) (upto .leading rfl)),
      alone .indent rfl rfl rfl rfl rfl (congrArg (fun k => { x.ctx with indent := k }) (upto .indent rfl)),
      leave .wsMin rfl rfl ?_, leave .wsOpt rfl rfl ?_, leave .wsMax rfl rfl ?_,
      alone .letterLimit rfl rfl rfl rfl rfl (congrArg (fun k => { x.ctx with letterLimit := k }) (upto .letterLimit rfl)),
      alone .elongLimit rfl rfl rfl rfl rfl (congrArg (fun k => { x.ctx with elongLimit := k }) (upto .elongLimit rfl)),
      alone .face rfl rfl rfl rfl rfl (congrArg (fun k => { x.ctx with face := k }) (full .face rfl)),
      alone .size rfl rfl rfl rfl rfl (congrArg (fun k => { x.ctx with size := k }) (number .size rfl)),
      alone .setw rfl rfl rfl rfl rfl (congrArg (fun k => { x.ctx with setw := k }) (number .setw rfl)),
      alone .track rfl rfl rfl rfl rfl (congrArg (fun k => { x.ctx with track := k }) (toInt_clampTrack v.toInt)),
      alone .fallback rfl rfl rfl rfl rfl (congrArg (fun k => { x.ctx with fallback := k }) (full .fallback rfl)),
      alone .hyphen rfl rfl rfl rfl rfl (congrArg (fun k => { x.ctx with hyphen := k }) (full .hyphen rfl))⟩
    · simp only [Context.write, Context.ordered, upto .wsMin rfl]
      congr 1
      omega
    · simp only [Context.write, Context.ordered, upto .wsOpt rfl]
      congr 1
      omega
    · simp only [Context.write, Context.ordered, upto .wsMax rfl, max_eq_left hws.1]
      rfl
  · exact exec_order_answers (.channelSet _) rfl hs (hform hlen) rfl (actChannelSet_range h fields _)

/-! ### COLUMN and RELEASE (R61, R71) -/

theorem actColumn_pends {c : Fin 4} {s : State} (h : s.ch[c].state = .composing) (top : BitVec 32) :
    actColumn (chByte c) top s = (s.setCh c { s.ch[c] with pendCol := some (min 4194303 top.toNat) },
      .accept (yesNo (decide (4194303 < top.toNat)))) := by
  unfold actColumn
  rw [channelOf_chByte]
  exact if_pos h

theorem actColumn_applies {c : Fin 4} {s : State} (h : s.ch[c].state ≠ .composing) (top : BitVec 32) :
    actColumn (chByte c) top s =
      (s.setCh c { s.ch[c] with top := min 4194303 top.toNat, next := min 4194303 top.toNat, lineCounter := 0 },
        .accept (yesNo (decide (4194303 < top.toNat)))) := by
  unfold actColumn
  rw [channelOf_chByte]
  exact if_neg h

theorem actColumn_range {target : Byte} (h : 4 ≤ target.toNat) (top : BitVec 32) (s : State) :
    actColumn target top s = (s, .refuse .range 0) := by
  simp [actColumn, channelOf_none h, Reply.no]

theorem actRelease_held {c : Fin 4} {why : HeldReason} {s : State} (h : s.ch[c].state = .held why) :
    actRelease (chByte c) s = (s.setCh c { s.ch[c] with state := eligibility s.ch[c].buffer }, .accept []) := by
  unfold actRelease
  rw [channelOf_chByte]
  dsimp only
  rw [h, ← Channel.testState_eq]
  rfl

theorem actRelease_other {c : Fin 4} {s : State} (h : ∀ why, s.ch[c].state ≠ .held why) :
    actRelease (chByte c) s = (s, .refuse .state 0) := by
  unfold actRelease
  rw [channelOf_chByte]
  dsimp only
  split
  · next e => exact absurd e (h _)
  · rfl

theorem actRelease_range {target : Byte} (h : 4 ≤ target.toNat) (s : State) : actRelease target s = (s, .refuse .range 0) := by
  simp [actRelease, channelOf_none h, Reply.no]

/-- Settles O12. -/
theorem columnAndReleaseActOnTheChannel : Obligations.ColumnAndReleaseActOnTheChannel := by
  intro s tag c hs x
  refine ⟨fun top h => ?_, fun top h => ?_, fun why h => ?_, fun h => ?_, fun target top h => ⟨?_, ?_⟩⟩
  · exact exec_order_answers (.column top) rfl hs rfl rfl (actColumn_applies (s := s.inHand ⟨0x12, tag, chByte c⟩) h top)
  · exact exec_order_answers (.column top) rfl hs rfl rfl (actColumn_pends (s := s.inHand ⟨0x12, tag, chByte c⟩) h top)
  · exact exec_order_answers .release rfl hs rfl rfl (actRelease_held (s := s.inHand ⟨0x14, tag, chByte c⟩) h)
  · exact exec_order_answers .release rfl hs rfl rfl (actRelease_other (s := s.inHand ⟨0x14, tag, chByte c⟩) h)
  · exact exec_order_answers (.column top) rfl hs rfl rfl (actColumn_range h top _)
  · exact exec_order_answers .release rfl hs rfl rfl (actRelease_range h _)

/-! ### Inquiries (R23, R72, R135, R152, R178) -/

theorem face_toNat (f : Fin 128) : (BitVec.ofNat 8 f.val).toNat = f.val := by
  rw [BitVec.toNat_ofNat]
  have := f.isLt
  omega

theorem ofNat_face (f : Fin 128) : Fin.ofNat 128 (BitVec.ofNat 8 f.val).toNat = f := by
  rw [face_toNat]
  exact Fin.ofNat_val_eq_self f

theorem actChannelQuery_reports (c : Fin 4) (s : State) :
    actChannelQuery (chByte c) s = (s, .accept (s.ch[c].report ++ s.lineCounts c)) := by
  unfold actChannelQuery
  rw [channelOf_chByte]

theorem actChannelQuery_range {target : Byte} (h : 4 ≤ target.toNat) (s : State) :
    actChannelQuery target s = (s, .refuse .range 0) := by
  simp [actChannelQuery, channelOf_none h, Reply.no]

theorem actFaceQuery_face (f : Fin 128) (s : State) :
    actFaceQuery (BitVec.ofNat 8 f.val) s = (s, .accept (s.fdm.faceReport f)) := by
  unfold actFaceQuery
  rw [if_pos (by rw [face_toNat]; exact f.isLt), ofNat_face]

theorem actFaceQuery_range {n : Byte} (h : 128 ≤ n.toNat) (h' : n.toNat ≤ 254) (s : State) :
    actFaceQuery n s = (s, .refuse .range 0) := by
  have hn : n ≠ 255 := by
    rintro rfl
    exact absurd h' (by decide)
  unfold actFaceQuery
  rw [if_neg (Nat.not_lt.2 h), if_neg hn]
  rfl

/-- Settles O14. -/
theorem queriesChangeNothing : Obligations.QueriesChangeNothing := by
  intro s tag hs
  refine ⟨fun c => ?_, fun target h => ?_, fun f => ?_, ?_, fun n h h' => ?_, ?_, ?_⟩
  · exact exec_order_answers .channelQuery rfl hs rfl rfl (actChannelQuery_reports c _)
  · exact exec_order_answers .channelQuery rfl hs rfl rfl (actChannelQuery_range h _)
  · exact exec_order_answers (.faceQuery _) rfl hs rfl rfl (actFaceQuery_face f _)
  · exact exec_order_answers (.faceQuery 255) (t := s) rfl hs rfl rfl rfl
  · exact exec_order_answers (.faceQuery n) rfl hs rfl rfl (actFaceQuery_range h h' _)
  · exact exec_order_answers .storeQuery (t := s) rfl hs rfl rfl rfl
  · exact exec_order_answers .exposeQuery (t := s) rfl hs rfl rfl rfl

theorem fours_flatMap (f : Fin 4 → Bytes) : fours.flatMap f = f 0 ++ f 1 ++ f 2 ++ f 3 := by simp [fours]

/-- Settles O15. -/
theorem statusReportsAndChangesNothing : Obligations.StatusReportsAndChangesNothing := by
  intro s tag hs
  have hact (t : State) : actStatus t = (t, .accept
      (t.olu.record.bytes ++ u8 t.olu.notices.length ++ u8 t.olu.lost ++ u8 t.ex.state.code ++ u8 t.sq.state.code ++
        u8 t.ch[0].state.code ++ u8 t.ch[1].state.code ++ u8 t.ch[2].state.code ++ u8 t.ch[3].state.code ++
          yesNo t.fdm.lock)) := by
    simp [actStatus, fours_flatMap]
  exact exec_order_answers .status rfl hs rfl rfl (hact _)

end Sys2Proof.Machine
end


section
/-! PROOF. The face directory and the mount orders (R19 to R22, R31), and the choice of a position for a load (R29, R32). -/

namespace Sys2Proof.Machine

/-! ### FACE_DEFINE (R19) -/

theorem regionSizeOk_iff (n : Nat) : regionSizeOk n = true ↔ ∃ k, k ≤ 10 ∧ n = 2 ^ k := by
  have hlist : ([1, 2, 4, 8, 16, 32, 64, 128, 256, 512, 1024] : List Nat) = (List.range 11).map (2 ^ ·) := rfl
  rw [regionSizeOk, hlist, decide_eq_true_iff, List.mem_map]
  simp only [List.mem_range, Nat.lt_succ_iff]
  exact ⟨fun ⟨k, hk, e⟩ => ⟨k, hk, e.symm⟩, fun ⟨k, hk, e⟩ => ⟨k, hk, e.symm⟩⟩

theorem Fdm.anyOverlap_true {d : Fdm} {base size : Nat} {g : Fin 128} (hg : d.dir[g].state ≠ .undefined)
    (h : overlaps base size d.dir[g].base d.dir[g].size = true) : d.anyOverlap base size = true := by
  by_contra hn
  have := Fdm.anyOverlap_false (by simpa using hn) g hg
  rw [h] at this
  cases this

theorem Fdm.anyOverlap_none {d : Fdm} {base size : Nat}
    (h : ∀ g : Fin 128, d.dir[g].state ≠ .undefined → overlaps base size d.dir[g].base d.dir[g].size = false) :
    d.anyOverlap base size = false := by
  simp only [Fdm.anyOverlap, Vector.any_eq_false]
  intro i hi
  by_cases hu : d.dir[i].state = .undefined
  · simp [hu]
  · have := h ⟨i, hi⟩ hu
    simpa [hu] using this

/-- R19, test 2: the face number and the region are in range. -/
def defineInRange (face : Byte) (base size : Nat) : Prop :=
  face.toNat < 128 ∧ (∃ k, k ≤ 10 ∧ size = 2 ^ k) ∧ base < 4096 ∧ base % size = 0

theorem defineInRange_iff (face : Byte) (base size : Nat) :
    ¬ defineInRange face base size ↔ 128 ≤ face.toNat ∨ regionSizeOk size = false ∨ 4096 ≤ base ∨ base % size ≠ 0 := by
  rw [defineInRange, ← regionSizeOk_iff, ← Bool.not_eq_true, not_and_or, not_and_or, not_and_or, Nat.not_lt, Nat.not_lt]

theorem actFaceDefine_locked {s : State} (h : s.fdm.lock = true) (face : Byte) (base size : Word) :
    actFaceDefine face base size s = (s, .refuse .mapLocked 0) := by
  simp [actFaceDefine, Fdm.defineRefusal, h, Reply.no]

theorem actFaceDefine_range {s : State} (h : s.fdm.lock = false) {face : Byte} {base size : Word}
    (hr : ¬ defineInRange face base.toNat size.toNat) : actFaceDefine face base size s = (s, .refuse .range 0) := by
  rw [defineInRange_iff] at hr
  unfold actFaceDefine Fdm.defineRefusal
  rw [if_neg (by simp [h]), if_pos hr]
  rfl

/-- The byte that names a face. -/
theorem face_byte (f : Fin 128) : ∃ face : Byte, Fin.ofNat 128 face.toNat = f ∧ face.toNat < 128 ∧ face = BitVec.ofNat 8 f.val :=
  ⟨_, ofNat_face f, by rw [face_toNat]; exact f.isLt, rfl⟩

theorem face_mod (f : Fin 128) : (BitVec.ofNat 8 f.val).toNat % 128 = f.val := by
  rw [face_toNat]
  exact Nat.mod_eq_of_lt f.isLt

/-- R19: past the lock and the ranges, the entry's state and the regions of the others decide. -/
theorem Fdm.defineRefusal_entry {d : Fdm} (h : d.lock = false) {f : Fin 128} {base size : Nat}
    (hr : defineInRange (BitVec.ofNat 8 f.val) base size) :
    d.defineRefusal (BitVec.ofNat 8 f.val) base size =
      if d.dir[f].state ≠ .undefined then some .state else if d.anyOverlap base size then some .overlap else none := by
  unfold Fdm.defineRefusal
  rw [if_neg (by simp [h]), if_neg (fun hn => (defineInRange_iff _ _ _).2 hn hr)]
  simp only [face_mod]
  rfl

/-- Settles O16. -/
theorem faceDefineTestsThenDefines : Obligations.FaceDefineTestsThenDefines := by
  intro s tag face base size hs refused inRange
  refine ⟨fun h => ?_, fun h hr => ?_, fun f hf h hr => ?_⟩
  · exact exec_order_answers (.faceDefine face base size) rfl hs rfl rfl (actFaceDefine_locked (s := s.inHand ⟨0x20, tag, 0⟩) h face base size)
  · exact exec_order_answers (.faceDefine face base size) rfl hs rfl rfl (actFaceDefine_range (s := s.inHand ⟨0x20, tag, 0⟩) h hr)
  · subst hf
    have hentry := Fdm.defineRefusal_entry (d := s.fdm) h hr
    have refuses {r : Reason} (e : s.fdm.defineRefusal (BitVec.ofNat 8 f.val) base.toNat size.toNat = some r) : refused r := by
      refine exec_order_answers (.faceDefine (BitVec.ofNat 8 f.val) base size) (t := s) rfl hs rfl rfl ?_
      change actFaceDefine _ base size (s.inHand ⟨0x20, tag, 0⟩) = _
      rw [actFaceDefine, State.inHand_fdm, e]
      rfl
    refine ⟨fun hd => refuses ?_, fun hd ⟨g, hg, ho⟩ => refuses ?_, fun hd hfree => ?_⟩
    · rw [hentry, if_pos hd]
    · rw [hentry, if_neg (not_not.2 hd), if_pos (Fdm.anyOverlap_true hg ho)]
    · have e : s.fdm.defineRefusal (BitVec.ofNat 8 f.val) base.toNat size.toNat = none := by
        rw [hentry, if_neg (not_not.2 hd), if_neg (by simp [Fdm.anyOverlap_none hfree])]
      refine exec_order_answers (.faceDefine (BitVec.ofNat 8 f.val) base size) rfl hs rfl rfl ?_
      change actFaceDefine _ base size (s.inHand ⟨0x20, tag, 0⟩) = _
      rw [actFaceDefine, State.inHand_fdm, e]
      dsimp only
      rw [ofNat_face]
      rfl

/-! ### MAP_LOCK (R22, R134) -/

theorem actFaceWithdraw_locked {s : State} (h : s.fdm.lock = true) (face : Byte) :
    actFaceWithdraw face s = (s, .refuse .mapLocked 0) := if_pos h

theorem actStoreWindow_locked {s : State} (h : s.fdm.lock = true) (first last : Byte) :
    actStoreWindow first last s = (s, .refuse .mapLocked 0) := if_pos h

/-- Settles O18. -/
theorem mapLockSetsAndProtects : Obligations.MapLockSetsAndProtects := by
  intro s tag hs
  refine ⟨exec_order_answers .mapLock (t := { s with fdm := { s.fdm with lock := true } }) rfl hs rfl rfl rfl,
    fun h face first last base size => ⟨?_, ?_, ?_⟩⟩
  · exact exec_order_answers (.faceDefine face base size) rfl hs rfl rfl (actFaceDefine_locked (s := s.inHand ⟨0x20, tag, 0⟩) h face base size)
  · exact exec_order_answers (.faceWithdraw face) rfl hs rfl rfl (actFaceWithdraw_locked (s := s.inHand ⟨0x21, tag, 0⟩) h face)
  · exact exec_order_answers (.storeWindow first last) rfl hs rfl rfl (actStoreWindow_locked (s := s.inHand ⟨0x37, tag, 0⟩) h first last)

/-! ### FACE_WITHDRAW (R20, R21) -/

theorem Fdm.posOf_face {d : Fdm} {f : Fin 128} {p : Fin 8} (h : d.posOf f = some p) : d.pos[p].state.face = some f := by
  have := List.find?_some h
  simpa using this

/-- R20: a face that holds a position keeps its withdrawal waiting while the position is LOADING or has a count. -/
theorem Fdm.inUse_iff {d : Fdm} {f : Fin 128} {p : Fin 8} (h : d.posOf f = some p) :
    d.inUse f = true ↔ d.pos[p].state = .loading f ∨ d.pos[p].count ≠ 0 := by
  have hface := Fdm.posOf_face h
  unfold Fdm.inUse
  rw [h]
  dsimp only
  cases hs : d.pos[p].state with
  | loading g =>
    rw [hs] at hface
    cases hface
    simp
  | empty => simp
  | mounted g => simp
  | failed g why => simp

theorem Fdm.inUse_none {d : Fdm} {f : Fin 128} (h : d.posOf f = none) : d.inUse f = false := by
  unfold Fdm.inUse
  rw [h]

theorem Fdm.not_inUse {d : Fdm} {f : Fin 128}
    (h : ∀ p, d.posOf f = some p → d.pos[p].state ≠ .loading f ∧ d.pos[p].count = 0) : d.inUse f = false := by
  cases hp : d.posOf f with
  | none => exact Fdm.inUse_none hp
  | some p =>
    rw [← Bool.not_eq_true, Fdm.inUse_iff hp]
    simpa using h p hp

theorem State.wake_cons (d : Fin 4) (cs : List (Fin 4)) (s : State) :
    s.wake (d :: cs) = State.wake cs (if s.ch[d].state = .mountWait then s.setCh d s.ch[d].retest else s) := rfl

/-- R35, R20: the channels of a waiting set that are in MOUNT_WAIT take the eligibility test, and nothing else changes. -/
theorem State.wake_eq (cs : List (Fin 4)) (s : State) : s.wake cs = { s with ch := (s.wake cs).ch } := by
  induction cs generalizing s with
  | nil => rfl
  | cons c cs ih =>
    rw [State.wake_cons]
    split
    · exact ih (s.setCh c _)
    · exact ih s

theorem State.wake_ch (cs : List (Fin 4)) (s : State) (c : Fin 4) :
    (s.wake cs).ch[c] =
      if c ∈ cs ∧ s.ch[c].state = .mountWait then { s.ch[c] with state := eligibility s.ch[c].buffer } else s.ch[c] := by
  induction cs generalizing s with
  | nil => simp [State.wake]
  | cons d cs ih =>
    rw [State.wake_cons, ih]
    by_cases hd : s.ch[d].state = .mountWait
    · rw [if_pos hd]
      by_cases hc : c = d
      · subst hc
        have hnot : s.ch[c].retest.state ≠ .mountWait := by
          simp only [Channel.retest, Channel.testState]
          split <;> simp
        rw [State.setCh_ch_same, if_neg (fun h => hnot h.2), if_pos ⟨List.mem_cons_self, hd⟩, ← Channel.testState_eq]
        rfl
      · rw [State.setCh_ch_other _ _ _ _ hc]
        simp [hc]
    · rw [if_neg hd]
      by_cases hc : c = d
      · subst hc
        rw [if_neg (fun h => hd h.2), if_neg (fun h => hd h.2)]
      · simp [hc]

/-- R20: the positions without those of a face that retires. -/
def Fdm.posWithout (d : Fdm) (f : Fin 128) : Vector MountPos 8 :=
  match d.posOf f with
  | some p => setAt d.pos p {}
  | none => d.pos

/-- R20: what a face's retirement leaves of the state. -/
theorem State.retireNow_eq (f : Fin 128) (s : State) :
    s.retireNow f =
      State.wake (((s.fdm.requests.find? (fun q => q.face == f)).map (·.waiters)).getD [])
        { s with fdm := { s.fdm with
          pos := s.fdm.posWithout f, dir := setAt s.fdm.dir f {}, requests := s.fdm.requests.filter (fun q => q.face != f) } } := by
  unfold State.retireNow Fdm.posWithout
  cases s.fdm.posOf f <;> rfl

theorem find_face_none {qs : List MountReq} {f : Fin 128} (h : ∀ q ∈ qs, q.face ≠ f) : qs.find? (fun q => q.face == f) = none := by
  simpa using h

theorem filter_face_self {qs : List MountReq} {f : Fin 128} (h : ∀ q ∈ qs, q.face ≠ f) : qs.filter (fun q => q.face != f) = qs := by
  simpa using h

theorem any_face {qs : List MountReq} {f : Fin 128} : qs.any (fun q => q.face == f) = (qs.find? (fun q => q.face == f)).isSome := by
  rw [Bool.eq_iff_iff, List.find?_isSome, List.any_eq_true]

/-- R20: a face without a request retires at once. -/
theorem State.retireNow_unwanted {f : Fin 128} {s : State} (h : ∀ q ∈ s.fdm.requests, q.face ≠ f) :
    s.retireNow f = { s with fdm := { s.fdm with pos := s.fdm.posWithout f, dir := setAt s.fdm.dir f {} } } := by
  rw [State.retireNow_eq, find_face_none h, filter_face_self h]
  rfl

theorem actFaceWithdraw_range {s : State} (h : s.fdm.lock = false) {face : Byte} (hf : 128 ≤ face.toNat) :
    actFaceWithdraw face s = (s, .refuse .range 0) := by
  unfold actFaceWithdraw
  rw [if_neg (by simp [h]), if_pos hf]
  rfl

/-- R20: past the lock and the range, the face's entry and its use decide. -/
theorem actFaceWithdraw_face {s : State} (h : s.fdm.lock = false) (f : Fin 128) :
    actFaceWithdraw (BitVec.ofNat 8 f.val) s =
      if s.fdm.dir[f].state ≠ .defined then (s, .refuse .state 0)
      else if s.fdm.inUse f then
        ({ s with fdm := { s.fdm with dir := setAt s.fdm.dir f { s.fdm.dir[f] with state := .withdrawing } } }, .accept [1, 255])
      else (s.retireNow f, .accept (u8 0 ++ opt8 (if s.fdm.requests.any (fun q => q.face == f) then some f.val else none))) := by
  obtain ⟨face, hface, hlt, e⟩ := face_byte f
  rw [← e]
  subst hface
  unfold actFaceWithdraw
  rw [if_neg (by simp [h]), if_neg (Nat.not_le.2 hlt)]
  rfl

theorem actFaceWithdraw_state {s : State} (h : s.fdm.lock = false) {f : Fin 128} (hd : s.fdm.dir[f].state ≠ .defined) :
    actFaceWithdraw (BitVec.ofNat 8 f.val) s = (s, .refuse .state 0) := (actFaceWithdraw_face h f).trans (if_pos hd)

theorem actFaceWithdraw_defers {s : State} (h : s.fdm.lock = false) {f : Fin 128} (hd : s.fdm.dir[f].state = .defined)
    (hu : s.fdm.inUse f = true) :
    actFaceWithdraw (BitVec.ofNat 8 f.val) s =
      ({ s with fdm := { s.fdm with dir := setAt s.fdm.dir f { s.fdm.dir[f] with state := .withdrawing } } }, .accept [1, 255]) := by
  rw [actFaceWithdraw_face h, if_neg (not_not.2 hd), if_pos hu]

theorem actFaceWithdraw_retires {s : State} (h : s.fdm.lock = false) {f : Fin 128} (hd : s.fdm.dir[f].state = .defined)
    (hu : s.fdm.inUse f = false) :
    actFaceWithdraw (BitVec.ofNat 8 f.val) s =
      (s.retireNow f, .accept (u8 0 ++ opt8 (if s.fdm.requests.any (fun q => q.face == f) then some f.val else none))) := by
  rw [actFaceWithdraw_face h, if_neg (not_not.2 hd), if_neg (by simp [hu])]

theorem actFaceWithdraw_unwanted {s : State} (h : s.fdm.lock = false) {f : Fin 128} (hd : s.fdm.dir[f].state = .defined)
    (hu : s.fdm.inUse f = false) (hq : ∀ q ∈ s.fdm.requests, q.face ≠ f) :
    actFaceWithdraw (BitVec.ofNat 8 f.val) s =
      ({ s with fdm := { s.fdm with pos := s.fdm.posWithout f, dir := setAt s.fdm.dir f {} } }, .accept [0, 255]) := by
  rw [actFaceWithdraw_retires h hd hu, State.retireNow_unwanted hq, any_face, find_face_none hq]
  rfl

/-- Settles O17. -/
theorem faceWithdrawDefersOrRetires : Obligations.FaceWithdrawDefersOrRetires := by
  intro s tag hs hl
  have run {f : Fin 128} {t : State} {r : Reply}
      (h : actFaceWithdraw (BitVec.ofNat 8 f.val) (s.inHand ⟨0x21, tag, 0⟩) = (t.inHand ⟨0x21, tag, 0⟩, r)) :
      exec (.faceWithdraw tag 0 (BitVec.ofNat 8 f.val)) s = .next (t.answered 0x21 tag 0 r) :=
    exec_order_answers (.faceWithdraw (BitVec.ofNat 8 f.val)) rfl hs rfl rfl h
  have hl' : (s.inHand ⟨0x21, tag, 0⟩).fdm.lock = false := hl
  refine ⟨fun face h => ?_, fun f h => run (actFaceWithdraw_state hl' h), fun f hd => ⟨fun p hp hu => ?_, fun p hp hload hcount hq => ?_,
    fun hp hq => ?_, fun q hfree hq => ?_⟩⟩
  · exact exec_order_answers (.faceWithdraw face) rfl hs rfl rfl (actFaceWithdraw_range hl' h)
  · exact run (actFaceWithdraw_defers hl' hd ((Fdm.inUse_iff hp).2 hu))
  · have hu : s.fdm.inUse f = false := by
      rw [← Bool.not_eq_true, Fdm.inUse_iff hp]
      exact fun h => h.elim hload (fun h => h hcount)
    have hpos : s.fdm.posWithout f = setAt s.fdm.pos p {} := by rw [Fdm.posWithout, hp]
    rw [← hpos]
    exact run (actFaceWithdraw_unwanted (s := s.inHand ⟨0x21, tag, 0⟩) hl' hd hu hq)
  · have hpos : s.fdm.posWithout f = s.fdm.pos := by rw [Fdm.posWithout, hp]
    have hact := actFaceWithdraw_unwanted (s := s.inHand ⟨0x21, tag, 0⟩) hl' hd (Fdm.inUse_none hp) hq
    rw [State.inHand_fdm, hpos] at hact
    exact run hact
  · have hact := actFaceWithdraw_retires (s := s.inHand ⟨0x21, tag, 0⟩) hl' hd (Fdm.not_inUse hfree)
    rw [State.retireNow_eq, State.inHand_fdm, any_face, hq, State.wake_eq] at hact
    exact ⟨_, run hact, fun c => State.wake_ch q.waiters _ c⟩

/-! ### MOUNT (R31) -/

theorem actMount_range {face : Byte} (h : 128 ≤ face.toNat) (s : State) : actMount face s = (s, .refuse .range 0) := if_pos h

theorem Fdm.mountedAt_some {d : Fdm} {f g : Fin 128} {p : Fin 8} (h : d.posOf f = some p) (hm : d.pos[p].state = .mounted g) :
    d.mountedAt f = some p := by
  unfold Fdm.mountedAt
  rw [h]
  dsimp only
  rw [hm]

/-- R31: past the range, the face's entry, its position, its request and the choice decide. -/
theorem actMount_face (f : Fin 128) (s : State) :
    actMount (BitVec.ofNat 8 f.val) s =
      if s.fdm.dir[f].state ≠ .defined then (s, .refuse .state 0)
      else match s.fdm.mountedAt f with
      | some p => (s, .accept (u8 0 ++ u8 p.val))
      | none =>
        if s.fdm.requests.any (fun q => q.face == f) then
          ({ s with fdm := { s.fdm with requests := s.fdm.requests.map (fun q => if q.face = f then { q with byOrder := true } else q) } },
            .accept [1])
        else if s.fdm.orderWaiting then (s, .refuse .busy 0)
        else if s.fdm.hasFailed f then ({ s with fdm := { s.fdm with requests := s.fdm.requests ++ [⟨f, [], true⟩] } }, .accept [2])
        else if s.fdm.choose f = none then (s, .refuse .busy 0)
        else ({ s with fdm := { s.fdm with requests := s.fdm.requests ++ [⟨f, [], true⟩] } }, .accept [2]) := by
  obtain ⟨face, hface, hlt, e⟩ := face_byte f
  rw [← e]
  subst hface
  exact if_neg (Nat.not_le.2 hlt)

theorem actMount_state {s : State} {f : Fin 128} (h : s.fdm.dir[f].state ≠ .defined) :
    actMount (BitVec.ofNat 8 f.val) s = (s, .refuse .state 0) := (actMount_face f s).trans (if_pos h)

theorem actMount_mounted {s : State} {f : Fin 128} (h : s.fdm.dir[f].state = .defined) {p : Fin 8} (hm : s.fdm.mountedAt f = some p) :
    actMount (BitVec.ofNat 8 f.val) s = (s, .accept (u8 0 ++ u8 p.val)) := by
  rw [actMount_face, if_neg (not_not.2 h), hm]

theorem actMount_joins {s : State} {f : Fin 128} (h : s.fdm.dir[f].state = .defined) (hm : s.fdm.mountedAt f = none)
    (hq : s.fdm.requests.any (fun q => q.face == f) = true) :
    actMount (BitVec.ofNat 8 f.val) s =
      ({ s with fdm := { s.fdm with requests := s.fdm.requests.map (fun q => if q.face = f then { q with byOrder := true } else q) } },
        .accept [1]) := by
  rw [actMount_face, if_neg (not_not.2 h), hm]
  exact if_pos hq

theorem actMount_queues {s : State} {f : Fin 128} (h : s.fdm.dir[f].state = .defined) (hm : s.fdm.mountedAt f = none)
    (hq : s.fdm.requests.any (fun q => q.face == f) = false) (ho : s.fdm.orderWaiting = false)
    (hc : s.fdm.hasFailed f = true ∨ s.fdm.choose f ≠ none) :
    actMount (BitVec.ofNat 8 f.val) s =
      ({ s with fdm := { s.fdm with requests := s.fdm.requests ++ [⟨f, [], true⟩] } }, .accept [2]) := by
  rw [actMount_face, if_neg (not_not.2 h), hm]
  dsimp only
  rw [if_neg (by simp [hq]), if_neg (by simp [ho])]
  by_cases hfail : s.fdm.hasFailed f = true
  · rw [if_pos hfail]
  · rw [if_neg hfail, if_neg (hc.resolve_left hfail)]

theorem actMount_busy {s : State} {f : Fin 128} (h : s.fdm.dir[f].state = .defined) (hm : s.fdm.mountedAt f = none)
    (hq : s.fdm.requests.any (fun q => q.face == f) = false)
    (hc : s.fdm.orderWaiting = true ∨ s.fdm.hasFailed f = false ∧ s.fdm.choose f = none) :
    actMount (BitVec.ofNat 8 f.val) s = (s, .refuse .busy 0) := by
  rw [actMount_face, if_neg (not_not.2 h), hm]
  dsimp only
  rw [if_neg (by simp [hq])]
  by_cases ho : s.fdm.orderWaiting = true
  · rw [if_pos ho]
  · obtain ⟨hfail, hnone⟩ := hc.resolve_left ho
    rw [if_neg ho, if_neg (by simp [hfail]), if_pos hnone]

/-- Settles O19. -/
theorem mountAnswersByTheFaceState : Obligations.MountAnswersByTheFaceState := by
  intro s tag hs
  have run {face : Byte} {t : State} {r : Reply} (h : actMount face (s.inHand ⟨0x24, tag, 0⟩) = (t.inHand ⟨0x24, tag, 0⟩, r)) :
      exec (.mount tag 0 face) s = .next (t.answered 0x24 tag 0 r) := exec_order_answers (.mount face) rfl hs rfl rfl h
  have none {f : Fin 128} (h : ∀ q ∈ s.fdm.requests, q.face ≠ f) : s.fdm.requests.any (fun q => q.face == f) = false := by
    simpa using h
  refine ⟨fun face h => run (actMount_range h _), fun f h => run (actMount_state (s := s.inHand ⟨0x24, tag, 0⟩) h), fun f hd => ⟨fun p hp hm => ?_,
    fun hm => ⟨fun hq => ?_, fun hq ho hc => ?_, fun hq hc => ?_⟩⟩⟩
  · exact run (actMount_mounted (s := s.inHand ⟨0x24, tag, 0⟩) hd (Fdm.mountedAt_some hp hm))
  · exact run (actMount_joins (s := s.inHand ⟨0x24, tag, 0⟩) hd hm (by simpa using hq))
  · exact run (actMount_queues (s := s.inHand ⟨0x24, tag, 0⟩) hd hm (none hq) ho hc)
  · exact run (actMount_busy (s := s.inHand ⟨0x24, tag, 0⟩) hd hm (none hq) hc)

/-! ### The choice of a position (R29, R32) -/

/-- R29: the position is FAILED with the face. -/
def Fdm.isOwn (d : Fdm) (f : Fin 128) (p : Fin 8) : Bool :=
  match d.pos[p].state with
  | .failed g _ => g == f
  | _ => false

/-- R29: the position is FAILED. -/
def Fdm.isFailed (d : Fdm) (p : Fin 8) : Bool :=
  match d.pos[p].state with
  | .failed _ _ => true
  | _ => false

/-- R29: the position is MOUNTED and no line refers to it. -/
def Fdm.isUnused (d : Fdm) (p : Fin 8) : Bool :=
  match d.pos[p].state with
  | .mounted _ => d.pos[p].count == 0
  | _ => false

theorem Fdm.choose_eq (d : Fdm) (f : Fin 128) :
    d.choose f = (eights.find? (d.isOwn f)).or ((eights.find? (fun p => d.pos[p].state == .empty)).or
      ((d.recency.find? d.isFailed).or (d.recency.find? d.isUnused))) := rfl

theorem Fdm.isOwn_iff (d : Fdm) (f : Fin 128) (p : Fin 8) : d.isOwn f p = true ↔ ∃ why, d.pos[p].state = .failed f why := by
  unfold Fdm.isOwn
  cases h : d.pos[p].state <;> simp

theorem Fdm.isFailed_iff (d : Fdm) (p : Fin 8) : d.isFailed p = true ↔ ∃ f why, d.pos[p].state = .failed f why := by
  unfold Fdm.isFailed
  cases h : d.pos[p].state <;> simp

theorem Fdm.isUnused_iff (d : Fdm) (p : Fin 8) :
    d.isUnused p = true ↔ (∃ f, d.pos[p].state = .mounted f) ∧ d.pos[p].count = 0 := by
  unfold Fdm.isUnused
  cases h : d.pos[p].state <;> simp

theorem eights_getElem (i : Nat) (h : i < eights.length) : eights[i] = ⟨i, h⟩ := by
  have key : ∀ j : Fin 8, eights[j.val]'j.isLt = j := by decide
  exact key ⟨i, h⟩

/-- The lowest-numbered position of a kind is the one found. -/
theorem find_eights {P : Fin 8 → Bool} {p : Fin 8} (hp : P p = true) (h : ∀ x, x < p → ¬ P x = true) : eights.find? P = some p := by
  rw [List.find?_eq_some_iff_getElem]
  refine ⟨hp, p.val, p.isLt, eights_getElem _ _, fun j hj => ?_⟩
  rw [eights_getElem]
  simpa using h ⟨j, hj.trans p.isLt⟩ hj

theorem find_eights_none {P : Fin 8 → Bool} (h : ∀ x, ¬ P x = true) : eights.find? P = none := List.find?_eq_none.2 (fun x _ => h x)

/-- The first of a kind in a list is the one found. -/
theorem find_oldest {P : Fin 8 → Bool} {p : Fin 8} {older newer : List (Fin 8)} (hp : P p = true) (h : ∀ x ∈ older, ¬ P x = true) :
    (older ++ p :: newer).find? P = some p :=
  List.find?_eq_some_iff_append.2 ⟨hp, older, newer, rfl, fun x hx => by simpa using h x hx⟩

/-- R29: the position chosen is FAILED, EMPTY, or MOUNTED without a reference. -/
theorem Fdm.choose_kind {d : Fdm} {f : Fin 128} {p : Fin 8} (h : d.choose f = some p) :
    (∀ g, d.pos[p].state ≠ .loading g) ∧ ∀ g, d.pos[p].state = .mounted g → d.pos[p].count = 0 := by
  rw [Fdm.choose_eq, Option.or_eq_some_iff, Option.or_eq_some_iff, Option.or_eq_some_iff] at h
  obtain h | ⟨-, h | ⟨-, h | ⟨-, h⟩⟩⟩ := h
  · obtain ⟨why, e⟩ := (d.isOwn_iff f p).1 (List.find?_some h)
    exact ⟨fun g h => (by cases e.symm.trans h), fun g h => (by cases e.symm.trans h)⟩
  · have e : d.pos[p].state = .empty := by simpa using List.find?_some h
    exact ⟨fun g h => (by cases e.symm.trans h), fun g h => (by cases e.symm.trans h)⟩
  · obtain ⟨g, why, e⟩ := (d.isFailed_iff p).1 (List.find?_some h)
    exact ⟨fun g h => (by cases e.symm.trans h), fun g h => (by cases e.symm.trans h)⟩
  · obtain ⟨⟨g, e⟩, hc⟩ := (d.isUnused_iff p).1 (List.find?_some h)
    exact ⟨fun g h => (by cases e.symm.trans h), fun _ _ => hc⟩

/-- Settles O20. -/
theorem loadBeginsInTheChosenPosition : Obligations.LoadBeginsInTheChosenPosition := by
  intro s q rest hq d begins own empty failed unused lowest oldest
  have chosen (hl : d.load = none) {p : Fin 8} (h : d.choose q.face = some p) : begins p := by
    refine ⟨?_, Fdm.choose_kind h⟩
    have hl' : s.fdm.load = none := hl
    have h' : s.fdm.choose q.face = some p := h
    simp only [exec, execMountLoadBegin, hl', hq, h']
    rfl
  have noOwn (h : ∀ x, ¬ own x) : eights.find? (d.isOwn q.face) = none :=
    find_eights_none (fun x hx => h x ((d.isOwn_iff q.face x).1 hx))
  have noEmpty (h : ∀ x, ¬ empty x) : eights.find? (fun p => d.pos[p].state == .empty) = none :=
    find_eights_none (fun x hx => h x (eq_of_beq hx))
  have noFailed (h : ∀ x ∈ d.recency, ¬ failed x) : d.recency.find? d.isFailed = none :=
    List.find?_eq_none.2 (fun x hx hf => h x hx ((d.isFailed_iff x).1 hf))
  have noUnused (h : ∀ x ∈ d.recency, ¬ unused x) : d.recency.find? d.isUnused = none :=
    List.find?_eq_none.2 (fun x hx hf => h x hx ((d.isUnused_iff x).1 hf))
  refine ⟨fun hl => ⟨fun p hp => chosen hl ?_, fun h1 p hp => chosen hl ?_, fun h1 p hp => chosen hl ?_, fun h1 h2 p hp => chosen hl ?_,
    fun h1 h2 => ?_, fun p hp => chosen hl hp⟩, fun hl => ?_⟩
  · rw [Fdm.choose_eq, find_eights ((d.isOwn_iff q.face p).2 hp.1) (fun x hx h => hp.2 x hx ((d.isOwn_iff q.face x).1 h))]
    rfl
  · rw [Fdm.choose_eq, noOwn h1, find_eights (P := fun p => d.pos[p].state == .empty) (p := p) (beq_iff_eq.2 hp.1) (fun x hx h => hp.2 x hx (eq_of_beq h))]
    rfl
  · obtain ⟨hp, older, newer, hrec, hold⟩ := hp
    rw [Fdm.choose_eq, noOwn (fun x => (h1 x).1), noEmpty (fun x => (h1 x).2), hrec,
      find_oldest ((d.isFailed_iff p).2 hp) (fun x hx h => hold x hx ((d.isFailed_iff x).1 h))]
    rfl
  · obtain ⟨hp, older, newer, hrec, hold⟩ := hp
    rw [Fdm.choose_eq, noOwn (fun x => (h1 x).1), noEmpty (fun x => (h1 x).2), noFailed h2, hrec,
      find_oldest ((d.isUnused_iff p).2 hp) (fun x hx h => hold x hx ((d.isUnused_iff x).1 h))]
    rfl
  · have hn : s.fdm.choose q.face = none := by
      rw [Fdm.choose_eq]
      exact (congrArg₂ Option.or (noOwn (fun x => (h1 x).1)) (congrArg₂ Option.or (noEmpty (fun x => (h1 x).2))
        (congrArg₂ Option.or (noFailed (fun x hx => (h2 x hx).1)) (noUnused (fun x hx => (h2 x hx).2)))))
    have hl' : s.fdm.load = none := hl
    simp only [exec, execMountLoadBegin, hl', hq, hn]
  · obtain ⟨l, hl⟩ := Option.ne_none_iff_exists'.1 hl
    have hl' : s.fdm.load = some l := hl
    simp only [exec, execMountLoadBegin, hl']

end Sys2Proof.Machine
end


section
/-! PROOF. The orders of the exposure controller: FILM_CUT, EXPOSE_SET, EXPOSE_HOLD and EXPOSE_RESUME (R148, R150, R151, R155). -/

namespace Sys2Proof.Machine

/-! ### FILM_CUT (R148) -/

/-- R148: no line is QUEUED or EXPOSING, there is no composition, and the EX is UNREGISTERED, IDLE or HELD. -/
def State.cutFree (s : State) : Prop :=
  s.ex.queued = [] ∧ s.ex.exposing = none ∧ s.ce.comp = none ∧
    (s.ex.state = .unregistered ∨ s.ex.state = .idle ∨ s.ex.state = .held)

theorem State.canCut_iff (s : State) : s.canCut = true ↔ s.cutFree := by
  simp [State.canCut, State.cutFree, and_assoc, or_assoc]

theorem actFilmCut_busy {s : State} (h : ¬ s.cutFree) : actFilmCut s = (s, .refuse .busy 0) := by
  rw [← State.canCut_iff, Bool.not_eq_true] at h
  exact if_pos h

/-- R148: a cut without a calibration due sends the CUT with its advance. -/
theorem actFilmCut_cuts {s : State} (h : s.cutFree) (hd : s.ex.counter < s.ex.interval) :
    actFilmCut s = ({ s with
      ch := s.ch.map (fun x => { x with next := x.top }),
      ex := { s.ex with
        state := .cutting, cutPending := false, holdReq := s.ex.holdReq || decide (s.ex.state = .held), chosen := none },
      sa := { s.sa with lane := s.sa.lane ++ [.cut s.ex.advance] } }, .accept [0]) := by
  have hdue : s.ex.due = false := by simpa [Ex.due] using hd
  have hn : ¬ s.canCut = false := by simp [(s.canCut_iff).2 h]
  unfold actFilmCut
  rw [if_neg hn]
  exact congrArg₂ Prod.mk (if_neg (show ¬ s.ex.due = true by simp [hdue])) (congrArg (fun b => Reply.accept (yesNo b)) hdue)

/-- R148: a cut with a calibration due sends its payback calibration first. -/
theorem actFilmCut_calibrates {s : State} (h : s.cutFree) (hd : s.ex.interval ≤ s.ex.counter) :
    actFilmCut s = ({ s with
      ch := s.ch.map (fun x => { x with next := x.top }),
      ex := { s.ex with
        state := .calibrating, cutPending := true, holdReq := s.ex.holdReq || decide (s.ex.state = .held), chosen := none },
      sa := { s.sa with lane := s.sa.lane ++ [.calibrate] } }, .accept [1]) := by
  have hdue : s.ex.due = true := by simpa [Ex.due] using hd
  have hn : ¬ s.canCut = false := by simp [(s.canCut_iff).2 h]
  unfold actFilmCut
  rw [if_neg hn]
  exact congrArg₂ Prod.mk (if_pos hdue) (congrArg (fun b => Reply.accept (yesNo b)) hdue)

/-- Settles O34. -/
theorem filmCutBeginsTheCut : Obligations.FilmCutBeginsTheCut := by
  intro s tag hs free rewound advance
  refine ⟨fun h hd => ?_, fun h hd => ?_, fun h => ?_⟩
  · exact exec_order_answers .filmCut rfl hs rfl rfl (actFilmCut_cuts (s := s.inHand ⟨0x40, tag, 0⟩) h hd)
  · exact exec_order_answers .filmCut rfl hs rfl rfl (actFilmCut_calibrates (s := s.inHand ⟨0x40, tag, 0⟩) h hd)
  · exact exec_order_answers .filmCut rfl hs rfl rfl (actFilmCut_busy (s := s.inHand ⟨0x40, tag, 0⟩) h)

/-! ### EXPOSE_SET (R151) -/

theorem Ex.operating_iff (e : Ex) : e.operating = true ↔ e.state = .exposing ∨ e.state = .calibrating ∨ e.state = .cutting := by
  simp [Ex.operating, or_assoc]

theorem actExposeSet_form {fields : List FieldEntry} (h : fieldsOk 6 fields = false) (s : State) :
    actExposeSet fields s = (s, .refuse .form 0) := if_pos h

theorem actExposeSet_busy {fields : List FieldEntry} (h : fieldsOk 6 fields = true) {s : State} (hop : s.ex.operating = true) :
    actExposeSet fields s = (s, .refuse .busy 0) := by
  unfold actExposeSet
  rw [if_neg (by simp [h]), if_pos hop]
  rfl

theorem actExposeSet_sets {fields : List FieldEntry} (h : fieldsOk 6 fields = true) {s : State} (hop : s.ex.operating = false) :
    actExposeSet fields s =
      ({ s with ex := s.ex.set fields }, .accept (clampedList (s.ex.clampedFields fields) ++ (s.ex.set fields).values.flatMap u16)) := by
  unfold actExposeSet
  rw [if_neg (by simp [h]), if_neg (by simp [hop])]

theorem Ex.values_bytes (e : Ex) (p : Bytes) :
    p ++ e.values.flatMap u16 =
      p ++ u16 e.reach ++ u16 e.interval ++ u16 e.deferLimit ++ u16 e.bypassLimit ++ u16 e.timeout ++ u16 e.cutMargin := by
  simp [Ex.values]

/-- Settles O35. -/
theorem exposeSetSetsTheValues : Obligations.ExposeSetSetsTheValues := by
  intro s tag fields hs hlen
  have hform : (Order.exposeSet fields).formOk = true := by simp [Order.formOk, hlen]
  refine ⟨fun h => ?_, fun h hop => ?_, fun h h1 h2 h3 => ?_⟩
  · exact exec_order_answers (.exposeSet fields) rfl hs hform rfl (actExposeSet_form h _)
  · exact exec_order_answers (.exposeSet fields) rfl hs hform rfl
      (actExposeSet_busy (s := s.inHand ⟨0x41, tag, 0⟩) h ((s.ex.operating_iff).2 hop))
  · have hop : s.ex.operating = false := by
      rw [← Bool.not_eq_true, Ex.operating_iff]
      tauto
    have hact := actExposeSet_sets (s := s.inHand ⟨0x41, tag, 0⟩) h hop
    rw [Ex.values_bytes] at hact
    exact ⟨s.ex.set fields, exec_order_answers (.exposeSet fields) rfl hs hform rfl hact, rfl, rfl, rfl, rfl, rfl, rfl, rfl⟩

/-! ### EXPOSE_HOLD and EXPOSE_RESUME (R150, R155) -/

theorem actExposeHold_rests {s : State} (h : s.ex.state = .idle ∨ s.ex.state = .unregistered) :
    actExposeHold s = ({ s with ex := { s.ex with state := .held } }, .accept [0]) := by
  unfold actExposeHold
  obtain h | h := h <;> rw [h] <;> rfl

theorem actExposeHold_held {s : State} (h : s.ex.state = .held) : actExposeHold s = (s, .accept [0]) := by
  unfold actExposeHold
  rw [h]
  rfl

theorem actExposeHold_pends {s : State}
    (h : s.ex.state = .exposing ∨ s.ex.state = .calibrating ∨ s.ex.state = .cutting ∨ s.ex.state = .faulted) :
    actExposeHold s = ({ s with ex := { s.ex with holdReq := true } }, .accept [1]) := by
  unfold actExposeHold
  obtain h | h | h | h := h <;> rw [h] <;> rfl

theorem actExposeResume_held {s : State} (h : s.ex.state = .held) :
    actExposeResume s = ({ s with ex := { s.ex with state := s.ex.resumed } }, .accept [0]) := by
  unfold actExposeResume
  dsimp only
  rw [h]
  rfl

theorem actExposeResume_faulted {s : State} (h : s.ex.state = .faulted) :
    actExposeResume s = ({ s with ex := { s.ex with
      fault := {}, holdReq := false, state := if s.ex.holdReq then .held else s.ex.resumed } }, .accept [0]) := by
  unfold actExposeResume
  dsimp only
  rw [h]
  rfl

theorem actExposeResume_withdraws {s : State} (h : s.ex.state = .exposing ∨ s.ex.state = .calibrating ∨ s.ex.state = .cutting)
    (hr : s.ex.holdReq = true) : actExposeResume s = ({ s with ex := { s.ex with holdReq := false } }, .accept [1]) := by
  unfold actExposeResume
  dsimp only
  obtain h | h | h := h <;> rw [h] <;> exact if_pos hr

theorem actExposeResume_refused {s : State}
    (h : s.ex.state = .idle ∨ s.ex.state = .unregistered ∨
      ((s.ex.state = .exposing ∨ s.ex.state = .calibrating ∨ s.ex.state = .cutting) ∧ s.ex.holdReq = false)) :
    actExposeResume s = (s, .refuse .state 0) := by
  unfold actExposeResume
  dsimp only
  obtain h | h | ⟨h | h | h, hr⟩ := h
  · rw [h]; rfl
  · rw [h]; rfl
  all_goals
    rw [h]
    exact if_neg (by simp [hr])

/-- Settles O36. -/
theorem exposeHoldAndResumeByState : Obligations.ExposeHoldAndResumeByState := by
  intro s tag hs hold resume operating rested
  refine ⟨fun h => ?_, fun h => ?_, fun h => ?_, fun h => ?_, fun h hr => ?_, fun h => ?_, fun h => ?_⟩
  · exact exec_order_answers .exposeHold rfl hs rfl rfl (actExposeHold_rests (s := s.inHand ⟨0x42, tag, 0⟩) h)
  · exact exec_order_answers .exposeHold (t := s) rfl hs rfl rfl (actExposeHold_held (s := s.inHand ⟨0x42, tag, 0⟩) h)
  · exact exec_order_answers .exposeHold rfl hs rfl rfl
      (actExposeHold_pends (s := s.inHand ⟨0x42, tag, 0⟩) (h.elim (fun h => h.imp_right (fun h => h.imp_right .inl)) (fun h => .inr (.inr (.inr h)))))
  · exact exec_order_answers .exposeResume rfl hs rfl rfl (actExposeResume_held (s := s.inHand ⟨0x43, tag, 0⟩) h)
  · exact exec_order_answers .exposeResume rfl hs rfl rfl (actExposeResume_withdraws (s := s.inHand ⟨0x43, tag, 0⟩) h hr)
  · exact exec_order_answers .exposeResume rfl hs rfl rfl (actExposeResume_faulted (s := s.inHand ⟨0x43, tag, 0⟩) h)
  · exact exec_order_answers .exposeResume rfl hs rfl rfl (actExposeResume_refused (s := s.inHand ⟨0x43, tag, 0⟩) h)

end Sys2Proof.Machine
end


section
/-! PROOF. The exposure controller under the unit's reports (R145, R147, R149, R154, R159) and the timeout (R153). -/

namespace Sys2Proof.Machine

/-! ### Notices posted and references released -/

/-- Notices posted one after another change the order link alone. -/
theorem State.postAll_eq (ns : List Notice) (s : State) :
    s.postAll ns = { s with olu := ns.foldl (fun o n => o.post n) s.olu } := by
  induction ns generalizing s with
  | nil => rfl
  | cons n ns ih => exact ih (s.post n)

theorem State.release_eq (used : List (Fin 8)) (s : State) :
    s.release used =
      { s with fdm := (s.fdm.decRefs used).1, olu := (s.fdm.decRefs used).2.foldl (fun o n => o.post n) s.olu } :=
  State.postAll_eq _ _

/-- R21: a reference that ends reports nothing but a face that retires. -/
theorem Fdm.decRef_notices {d : Fdm} {p : Fin 8} {n : Notice} (h : n ∈ (d.decRef p).2) : ∃ f p, n = .faceRetired f p := by
  unfold Fdm.decRef at h
  dsimp only at h
  split at h
  · unfold Fdm.retireFrom at h
    split at h
    · split at h
      · exact ⟨_, _, List.mem_singleton.1 h⟩
      · cases h
    · cases h
  · cases h

theorem Fdm.decRefs_notices {ps : List (Fin 8)} {d : Fdm} {n : Notice} (h : n ∈ (d.decRefs ps).2) : ∃ f p, n = .faceRetired f p := by
  induction ps generalizing d with
  | nil => cases h
  | cons p ps ih =>
    obtain h | h := List.mem_append.1 h
    · exact Fdm.decRef_notices h
    · exact ih h

/-! ### An exposure begins (R146, R161) -/

theorem filter_length_lt {α : Type} (p : α → Bool) (l : List α) :
    (l.filter (fun a => !p a)).length < l.length ↔ l.any p = true := by
  rw [List.length_filter_lt_length_iff_exists, List.any_eq_true]
  simp

/-- The EXPOSING line of a QUEUED one, as the film's travel to it begins (R146). -/
def QueuedLine.exposing (q : QueuedLine) (film : Nat) : ExposingLine :=
  { slot := q.slot, line := q.line, travel := (q.line.header.baseline : Int) - film, bypass := q.bypass }

/-- R146, R161: an exposure begins with its line, its travel and its strike list. -/
theorem State.expose_exposes (q : QueuedLine) (s : State) : State.exposes q s (s.expose q).settle := by
  unfold State.exposes
  intro b all marks
  have hmark : ∃ x : ExposingLine, x.slot = q.slot ∧ x.bypass = q.bypass ∧ x.travel = (b : Int) - s.ex.film ∧
      x.line = { q.line with header := { q.line.header with marks := { marks with
        clipped := marks.clipped || all.any (fun r => r.offField) } } } ∧
      (s.expose q).ex = { s.ex with
        state := .exposing, chosen := none, queued := s.ex.queued.filter (fun y => y.slot != q.slot), exposing := some x,
        film := b, high := max s.ex.high b } := by
    have hx : (s.expose q).ex = if (all.filter (fun r => !r.offField)).length < all.length then
        Ex.markLine { s.ex with
          state := .exposing, chosen := none, queued := s.ex.queued.filter (fun y => y.slot != q.slot),
          exposing := some (q.exposing s.ex.film), film := b, high := max s.ex.high b } (fun m => { m with clipped := true })
        else { s.ex with
          state := .exposing, chosen := none, queued := s.ex.queued.filter (fun y => y.slot != q.slot),
          exposing := some (q.exposing s.ex.film), film := b, high := max s.ex.high b } := rfl
    rw [hx]
    split
    · next h =>
      rw [filter_length_lt] at h
      rw [h, Bool.or_true]
      exact ⟨_, rfl, rfl, rfl, rfl, rfl⟩
    · next h =>
      rw [filter_length_lt, Bool.not_eq_true] at h
      rw [h, Bool.or_false]
      exact ⟨_, rfl, rfl, rfl, rfl, rfl⟩
  obtain ⟨x, h1, h2, h3, h4, h5⟩ := hmark
  have hpump := pumpStrike_frame s.fdm 16
    { s.sa with
      assembly := some { list := all.filter (fun r => !r.offField) }, buffers := Vector.replicate 8 .free,
      lane := s.sa.lane ++ [.lineBegin q.line.header.tag ((b : Int) - s.ex.film)] } s.fs
  obtain ⟨⟨hlane, hacked⟩, -, -, hasm⟩ := hpump
  obtain ⟨k, owed, hw, -⟩ := hasm _ rfl
  exact ⟨x, _, h1, h2, h3, h4, h5, hlane.trans (by rw [h3]), hacked, hw, rfl, rfl, rfl, rfl, rfl, rfl, rfl, rfl, rfl⟩

/-! ### DONE and bytes of no record (R145, R147, R149, R159) -/

theorem State.returnByte_done {s : State} (h : s.olu.phase ≠ .inReset) (hp : s.sa.returnPartial = false) :
    s.returnByte 0x71 = s.takeDone := by
  unfold State.returnByte
  rw [if_neg h, if_neg (by simp [hp]), if_pos rfl]

theorem State.returnByte_unknown {s : State} (h : s.olu.phase ≠ .inReset) (hp : s.sa.returnPartial = false) {b : Byte} (h1 : b ≠ 0x71)
    (h2 : b ≠ 0x72) : s.returnByte b = s := by
  unfold State.returnByte
  rw [if_neg h, if_neg (by simp [hp]), if_neg h1, if_neg h2]

/-- A FAULT's two bytes. -/
theorem State.returnByte_fault {s : State} (h : s.olu.phase ≠ .inReset) (hp : s.sa.returnPartial = false) (b : Byte) :
    (s.returnByte 0x72).returnByte b = s.takeFault (faultKind b) := by
  have h1 : s.returnByte 0x72 = { s with sa := { s.sa with returnPartial := true } } := by
    unfold State.returnByte
    rw [if_neg h, if_neg (by simp [hp]), if_neg (by decide), if_pos rfl]
  have h2 : ({ s with sa := { s.sa with returnPartial := false } } : State) = s := by rw [← hp]
  rw [h1, State.returnByte, if_neg h, if_pos rfl]
  exact congrArg (State.takeFault (faultKind b)) h2

theorem State.takeDone_ignored {s : State}
    (h : s.ex.state = .unregistered ∨ s.ex.state = .idle ∨ s.ex.state = .held ∨ s.ex.state = .faulted ∨ s.ex.timer = none) :
    s.takeDone = s := by
  unfold State.takeDone
  split
  · rfl
  · next ht =>
    rw [ht] at h
    obtain h | h | h | h | h := h
    · rw [h]
    · rw [h]
    · rw [h]
    · rw [h]
    · cases h

theorem State.takeDone_exposing {s : State} {d : Nat} {x : ExposingLine} (hs : s.ex.state = .exposing) (hx : s.ex.exposing = some x)
    (ht : s.ex.timer = some d) : s.takeDone = s.exposed x := by
  unfold State.takeDone
  rw [ht, hs, hx]

theorem State.takeDone_calibrating {s : State} {d : Nat} (hs : s.ex.state = .calibrating) (ht : s.ex.timer = some d) :
    s.takeDone = s.calibrated := by
  unfold State.takeDone
  rw [ht, hs]

theorem State.takeDone_cutting {s : State} {d : Nat} (hs : s.ex.state = .cutting) (ht : s.ex.timer = some d) :
    s.takeDone = { s with ex := s.ex.cutDone } := by
  unfold State.takeDone
  rw [ht, hs]

/-- R147, R149: the EX at an operation's end. -/
theorem Ex.rest_eq (e : Ex) : e.rest = { e with state := if e.holdReq then .held else .idle, holdReq := false } := by
  unfold Ex.rest
  split
  · rfl
  · next h =>
    rw [Bool.not_eq_true] at h
    rw [← h]

/-- R147: an exposure completes. -/
theorem State.exposed_eq (x : ExposingLine) (s : State) :
    s.exposed x = State.postAll (.lineExposed x.line.header x.travel s.ex.pageCount :: (s.fdm.decRefs x.line.used).2)
      { s with fdm := (s.fdm.decRefs x.line.used).1, ex := { s.ex with
        state := if s.ex.holdReq then .held else .idle, holdReq := false, timer := none, exposing := none,
        counter := min 65535 (s.ex.counter + 1), lastChannel := some x.line.header.channel } } := by
  unfold State.exposed
  dsimp only
  rw [State.release_eq, State.postAll_eq, Ex.rest_eq]
  rfl

theorem State.calibrated_cut {s : State} (h : s.ex.cutPending = true) :
    s.calibrated = { s with
      ex := { s.ex with state := .cutting, cutPending := false, timer := none, counter := 0, deferral := 0 },
      sa := { s.sa with lane := s.sa.lane ++ [.cut s.ex.advance] } } := if_pos h

theorem State.calibrated_held {s : State} (h : s.ex.cutPending = false) (hr : s.ex.holdReq = true) :
    s.calibrated = { s with ex := { s.ex with
      state := .held, holdReq := false, chosen := none, timer := none, counter := 0, deferral := 0 } } := by
  unfold State.calibrated
  dsimp only
  rw [if_neg (by simp [h]), if_pos hr]

/-- R145: past the cut and the hold, the chosen line decides. -/
theorem State.calibrated_chosen {s : State} (h : s.ex.cutPending = false) (hr : s.ex.holdReq = false) :
    s.calibrated = match s.ex.chosenLine with
      | some q => State.expose q { s with ex := { s.ex with timer := none, counter := 0, deferral := 0 } }
      | none => { s with ex := { s.ex with state := .idle, chosen := none, timer := none, counter := 0, deferral := 0 } } := by
  unfold State.calibrated
  dsimp only
  rw [if_neg (by simp [h]), if_neg (by simp [hr])]
  rfl

theorem Ex.chosenLine_gone {e : Ex} (h : ∀ n, e.chosen = some ⟨n, false⟩ → ∀ q ∈ e.queued, q.slot ≠ n) : e.chosenLine = none := by
  unfold Ex.chosenLine
  split
  · next x hx =>
    split
    · rfl
    · next hr =>
      obtain ⟨n, removed⟩ := x
      obtain rfl : removed = false := by simpa using hr
      simpa using h n hx
  · rfl

theorem Ex.chosenLine_some {e : Ex} {n : Fin 16} {q : QueuedLine} (h : e.chosen = some ⟨n, false⟩)
    (hq : e.queued.find? (fun y => y.slot == n) = some q) : e.chosenLine = some q := by
  unfold Ex.chosenLine
  rw [h]
  exact hq

/-- Settles O39. -/
theorem unitDoneEndsTheOperation : Obligations.UnitDoneEndsTheOperation := by
  intro s hphase hpart rested advance
  have done {t : State} (h : s.takeDone = t) : exec .unitDone s = .next t.settle := by
    rw [← h, ← State.returnByte_done hphase hpart]
    rfl
  refine ⟨fun b h1 h2 => ?_, fun h => done (State.takeDone_ignored h), fun x d hs hx ht => ⟨?_, ?_, ?_, ?_⟩, fun d ht hs => ⟨?_, ?_, ?_, ?_⟩,
    fun d ht hs => ?_⟩
  · exact congrArg (fun t => Host.Outcome.next (State.settle t)) (State.returnByte_unknown hphase hpart h1 h2)
  · exact done ((State.takeDone_exposing hs hx ht).trans (s.exposed_eq x))
  · exact fun n hn => Fdm.decRefs_notices hn
  · exact fun p hp => (Fdm.decRefs_pos p _ _).2 hp
  · intro hn p hp
    rw [(Fdm.decRefs_pos p _ _).1, List.count_eq_one_of_mem hn hp]
  · exact fun hc => done ((State.takeDone_calibrating hs ht).trans (State.calibrated_cut hc))
  · exact fun hc hr => done ((State.takeDone_calibrating hs ht).trans (State.calibrated_held hc hr))
  · intro hc hr hgone
    have h := State.calibrated_chosen hc hr
    rw [Ex.chosenLine_gone hgone] at h
    exact done ((State.takeDone_calibrating hs ht).trans h)
  · intro n q hc hr hch hq
    have h := State.calibrated_chosen hc hr
    rw [Ex.chosenLine_some hch hq] at h
    exact ⟨_, done ((State.takeDone_calibrating hs ht).trans h), State.expose_exposes q _⟩
  · refine done ((State.takeDone_cutting hs ht).trans ?_)
    rw [Ex.cutDone, Ex.rest_eq]

/-! ### Faults and the timeout (R153, R154) -/

theorem FaultCause.losesFilm_iff (c : FaultCause) : (!c.losesFilm) = decide (c = .lamp ∨ c = .timeout) := by cases c <;> rfl

theorem Ex.faulted_registered (e : Ex) (cause : FaultCause) :
    (e.faulted cause).registered =
      (e.registered && decide (e.state ≠ .cutting) && decide (cause = .lamp ∨ cause = .timeout)) := by
  have hcut : (e.state != .cutting) = decide (e.state ≠ .cutting) := by cases e.state <;> rfl
  rw [← FaultCause.losesFilm_iff, ← hcut]
  exact Bool.and_right_comm _ _ _

/-- R154: a unit fault loses the film unless it is a lamp's. -/
theorem faultKind_losesFilm (b : Byte) : (!(faultKind b).losesFilm) = decide (faultKind b = .lamp) := by
  unfold faultKind
  split
  · rfl
  · split <;> rfl

theorem State.fetchesIdle_queue (s : State) : s.fetchesIdle.fs.queue = s.fs.queue ∧ s.fetchesIdle.fs.held = s.fs.held := by
  unfold State.fetchesIdle
  split
  · exact ⟨rfl, rfl⟩
  · exact ⟨rfl, rfl⟩

theorem State.takeFault_faulted {s : State} (h : s.ex.state = .faulted) (cause : FaultCause) :
    s.takeFault cause = { s with ex := { s.ex with
      fault := { s.ex.fault with count := min 255 (s.ex.fault.count + 1) },
      registered := s.ex.registered && !cause.losesFilm } } := if_pos h

theorem State.takeFault_enters {s : State} (h : s.ex.state ≠ .faulted) (cause : FaultCause) :
    s.takeFault cause = s.enterFaulted cause .fault := if_neg h

/-! What the port keeps at the end of an operation by fault (R153, R154, R166). -/

theorem State.stopPort_exposing {s : State} (h : s.ex.state = .exposing) :
    s.stopPort = { s with sa := s.sa.toIdle.idleLane, fs := s.fs.withdraw .strike } := by
  unfold State.stopPort
  rw [h]

theorem State.stopPort_lane {s : State} (h : s.ex.state = .exposing ∨ s.ex.state = .calibrating ∨ s.ex.state = .cutting) :
    ∃ a : Sa, s.stopPort.sa = a.idleLane := by
  unfold State.stopPort
  obtain h | h | h := h <;> rw [h] <;> exact ⟨_, rfl⟩

theorem State.stopPort_rests {s : State} (h1 : s.ex.state ≠ .exposing) (h2 : s.ex.state ≠ .calibrating) (h3 : s.ex.state ≠ .cutting) :
    s.stopPort = s := by
  unfold State.stopPort
  split <;> trivial

theorem State.loseExposing_other {s : State} (h : s.ex.state ≠ .exposing) (why : LossReason) : s.loseExposing why = s := by
  unfold State.loseExposing
  split
  · next h1 _ => exact absurd h1 h
  · rfl

theorem State.loseExposing_line {s : State} {x : ExposingLine} (h : s.ex.state = .exposing) (hx : s.ex.exposing = some x) (why : LossReason) :
    s.loseExposing why = { s.loseLine x.line why with ex := { (s.loseLine x.line why).ex with exposing := none } } := by
  unfold State.loseExposing
  rw [h, hx]

/-- R139, R156: the notices of a lost line are its LINE_LOST and those of the faces that retire with it. -/
theorem State.loseLine_olu (l : Line) (why : LossReason) (s : State) :
    (s.loseLine l why).olu = (s.fdm.decRefs l.used).2.foldl (fun o n => o.post n) (s.olu.post (.lineLost l.header why)) := by
  rw [State.loseLine, State.release_eq]
  rfl

theorem State.loseExposing_olu {s : State} {x : ExposingLine} (h : s.ex.state = .exposing) (hx : s.ex.exposing = some x) (why : LossReason) :
    (s.loseExposing why).olu =
      (s.fdm.decRefs x.line.used).2.foldl (fun o n => o.post n) (s.olu.post (.lineLost x.line.header why)) := by
  rw [State.loseExposing_line h hx]
  exact s.loseLine_olu x.line why

/-- The blocks that a fault's entry leaves to the port and to the lost line. -/
theorem State.enterFaulted_rest (cause : FaultCause) (why : LossReason) (s : State) :
    (s.enterFaulted cause why).fdm = (s.stopPort.loseExposing why).fdm ∧
      (s.enterFaulted cause why).sa = s.stopPort.sa ∧
      (s.enterFaulted cause why).fs.queue = s.stopPort.fs.queue ∧ (s.enterFaulted cause why).fs.held = s.stopPort.fs.held ∧
      (s.enterFaulted cause why).olu =
        (s.stopPort.loseExposing why).olu.post (.exposeFault cause s.ex.operation (s.ex.faulted cause).registered) := by
  have hl := s.stopPort.loseExposing_touches why
  have hfs := hl.fs (by decide)
  have hsa := hl.sa (by decide)
  unfold State.enterFaulted
  dsimp only
  refine ⟨?_, ?_, ?_, ?_, ?_⟩
  · rw [(State.fetchesIdle_touches _).fdm (by decide)]
    rfl
  · rw [(State.fetchesIdle_touches _).sa (by decide), ← hsa]
    rfl
  · rw [(State.fetchesIdle_queue _).1, ← hfs]
    rfl
  · rw [(State.fetchesIdle_queue _).2, ← hfs]
    rfl
  · rw [(State.fetchesIdle_touches _).olu (by decide)]
    rfl

theorem Fs.withdraw_none (f : Fs) (q : Requester) : ∀ r ∈ (f.withdraw q).queue ++ (f.withdraw q).held, r.requester ≠ q := by
  intro r hr
  have hboth : r ∈ (f.queue ++ f.held).filter (fun r => r.requester != q) := by rwa [List.filter_append]
  simpa using (List.mem_filter.1 hboth).2

/-- Settles O40. -/
theorem faultsAndTimeoutStopTheController : Obligations.FaultsAndTimeoutStopTheController := by
  intro s hphase hpart
  refine ⟨fun b hf => ?_, fun c cause why hf hc => ?_⟩
  · have h := (State.returnByte_fault hphase hpart b).trans (State.takeFault_faulted hf (faultKind b))
    rw [faultKind_losesFilm] at h
    exact congrArg (fun t => Host.Outcome.next (State.settle t)) h
  · obtain ⟨n, hexec⟩ : ∃ n, exec c s = .next (State.enterFaulted cause why { s with time := n }).settle := by
      obtain ⟨b, rfl, rfl, rfl⟩ | ⟨rfl, ht, rfl, rfl⟩ := hc
      · exact ⟨s.time, congrArg (fun t => Host.Outcome.next (State.settle t))
          ((State.returnByte_fault hphase hpart b).trans (State.takeFault_enters hf _))⟩
      · obtain ⟨d, hd⟩ := Option.ne_none_iff_exists'.1 ht
        refine ⟨max s.time d, ?_⟩
        simp only [exec, execExposureTimeout, hd]
    have hex := State.enterFaulted_ex cause why { s with time := n }
    obtain ⟨hfdm, hsa, hqueue, hheld, holu⟩ := State.enterFaulted_rest cause why { s with time := n }
    have htouch := State.enterFaulted_touches cause why { s with time := n }
    have hreg := s.ex.faulted_registered cause
    have hhold : (s.ex.faulted cause).holdReq = (s.ex.holdReq || decide (s.ex.state = .held)) := rfl
    refine ⟨_, hexec, ?_⟩
    rw [State.settle_ex, State.settle_olu, State.settle_fdm, State.settle_sa, State.settle_fs, State.settle_ch, State.settle_ce,
      State.settle_store, hex, holu, hfdm, hsa, hqueue, hheld]
    refine ⟨rfl, rfl, rfl, rfl, rfl, rfl, rfl, rfl, rfl, rfl, rfl, hreg, hhold, fun hx => ?_, fun x hx hline => ?_, fun hop => ?_,
      fun h1 h2 h3 => ?_, htouch.ch (by decide), htouch.ce (by decide), htouch.store (by decide)⟩
    · have hstop : (State.stopPort { s with time := n }).ex.state ≠ .exposing := by
        rw [(State.stopPort_touches _).ex (by decide)]
        exact hx
      rw [if_neg hx, State.loseExposing_other hstop, (State.stopPort_touches _).fdm (by decide), (State.stopPort_touches _).olu (by decide)]
      exact ⟨rfl, rfl, rfl⟩
    · have hstop := State.stopPort_exposing (s := { s with time := n }) hx
      have hex' : (State.stopPort { s with time := n }).ex = s.ex := (State.stopPort_touches _).ex (by decide)
      have hlost := State.loseExposing_olu (s := State.stopPort { s with time := n }) (by rw [hex']; exact hx)
        (by rw [hex']; exact hline) why
      rw [(State.stopPort_touches _).fdm (by decide), (State.stopPort_touches _).olu (by decide)] at hlost
      rw [if_pos hx, hlost, congrArg State.sa hstop, congrArg State.fs hstop]
      exact ⟨rfl, rfl, fun _ => Fs.withdraw_none _ _, (s.fdm.decRefs x.line.used).2, fun m hm => Fdm.decRefs_notices hm, rfl⟩
    · obtain ⟨a, e⟩ := State.stopPort_lane (s := { s with time := n }) hop
      rw [e]
      exact ⟨rfl, rfl, rfl⟩
    · rw [State.stopPort_rests (s := { s with time := n }) h1 h2 h3]

end Sys2Proof.Machine
end


section
/-! PROOF. The sending of records (R158, R162, R164) and the film arbiter (R142 to R146). -/

namespace Sys2Proof.Machine

/-! ### RECORD_SENT (R158, R164) -/

/-- R158: the record in the lane has been sent. -/
theorem execRecordSent_record {s : State} {r : OutRecord} {rest : List OutRecord} (h : s.sa.lane = r :: rest) :
    exec .recordSent s = .next (State.recordSent r { s with sa := { s.sa with lane := rest, acked := 0 } }).settle := by
  simp only [exec, execRecordSent, h]

theorem execRecordSent_idle {s : State} (h : s.sa.lane = []) : exec .recordSent s = .next s.settle := by
  simp only [exec, execRecordSent, h]

/-- R164: the buffer of the record at the send point is FREE, and the send point moves on. -/
theorem Sa.sentRecord_filled {a : Sa} {w : Assembly} {b : Fin 8} {data : Bytes} {om : Bool} (h : a.assembly = some w)
    (hb : a.filledFor w.sendPoint = some (b, data, om)) :
    a.sentRecord = { a with assembly := some { w with sendPoint := w.sendPoint + 1 }, buffers := setAt a.buffers b .free } := by
  unfold Sa.sentRecord
  rw [h]
  dsimp only
  rw [hb]

/-- A master buffer of the SA. -/
def Sa.buffer (a : Sa) (x : Fin 8) : MasterBuf := a.buffers[x]

/-- R162: the SA's fetches leave a buffer that is not FREE as it is. -/
theorem pumpStrike_buffer (d : Fdm) (x : Fin 8) : ∀ (n : Nat) (a : Sa) (f : Fs), a.buffer x ≠ .free →
    (pumpStrike d n a f).1.buffer x = a.buffer x := by
  intro n
  induction n with
  | zero => exact fun _ _ _ => rfl
  | succ n ih =>
    intro a f hx
    unfold pumpStrike
    cases ha : a.assembly with
    | none => rfl
    | some w =>
      dsimp only
      split
      · rfl
      · split
        · next b rest _ => exact ih { a with assembly := some { w with owed := rest } } _ hx
        · split
          · next r b _ hfree =>
            have hb : a.buffers[b] = .free := by
              have := List.find?_some hfree
              simpa using this
            have hne : x ≠ b := fun e => hx (e ▸ hb)
            have hkeep : Sa.buffer { a with
                assembly := some { w with fetchPoint := w.fetchPoint + 1 },
                buffers := setAt a.buffers b (.fetching w.fetchPoint false) } x = a.buffer x := setAt_other a.buffers b x _ hne
            exact (ih _ _ (hkeep.symm ▸ hx)).trans hkeep
          · rfl

/-- R162: with nothing owed and nothing left to fetch, or no buffer FREE, the SA makes no request. -/
theorem pumpStrike_done {d : Fdm} {a : Sa} {f : Fs} {w : Assembly} (h : a.assembly = some w) (ho : w.owed = [])
    (hn : w.list[w.fetchPoint]? = none ∨ a.freeBuffer = none) (n : Nat) : pumpStrike d n a f = (a, f) := by
  cases n with
  | zero => rfl
  | succ n =>
    unfold pumpStrike
    rw [h]
    dsimp only
    split
    · rfl
    · rw [ho]
      dsimp only
      split
      · next h1 h2 =>
        obtain hn | hn := hn
        · rw [hn] at h1
          cases h1
        · rw [hn] at h2
          cases h2
      · rfl

/-- R162: the next master is requested into the FREE buffer. -/
theorem pumpStrike_next {d : Fdm} {a : Sa} {f : Fs} {w : Assembly} {r : StrikeRec} {b : Fin 8} (h : a.assembly = some w) (ho : w.owed = [])
    (hf : f.holdsFor .strike = false) (hr : w.list[w.fetchPoint]? = some r) (hb : a.freeBuffer = some b) (n : Nat) :
    pumpStrike d (n + 1) a f =
      pumpStrike d n
        { a with assembly := some { w with fetchPoint := w.fetchPoint + 1 }, buffers := setAt a.buffers b (.fetching w.fetchPoint false) }
        (f.request (masterFetch d r.pos r.glyph b)) := by
  rw [pumpStrike, h]
  dsimp only
  rw [if_neg (by simp [hf]), ho]
  dsimp only
  rw [hr, hb]

/-- Settles O38. -/
theorem recordSentMovesTheLane : Obligations.RecordSentMovesTheLane := by
  intro s deadline
  have strikeOf {r : OutRecord} (h : (∃ x dy size setw master, r = .strike x dy size setw master) ∨ ∃ x width size master, r = .extend x width size master)
      (v : State) : State.recordSent r v = (State.pumpSa { v with sa := v.sa.sentRecord }).send := by
    obtain ⟨_, _, _, _, _, rfl⟩ | ⟨_, _, _, _, rfl⟩ := h <;> rfl
  refine ⟨fun r rest h => ?_, fun h => execRecordSent_idle h, fun rest h => execRecordSent_record h, fun r rest h hr => ?_,
    fun tag travel rest h => ?_, fun r rest h hr => ?_⟩
  · have key : (State.recordSent r { s with sa := { s.sa with lane := rest, acked := 0 } }).sa.acked = 0 ∧
        rest <:+ (State.recordSent r { s with sa := { s.sa with lane := rest, acked := 0 } }).sa.lane := by
      have send (v : State) (h1 : v.sa.acked = 0) (h2 : v.sa.lane = rest) : v.send.sa.acked = 0 ∧ rest <:+ v.send.sa.lane :=
        ⟨v.send_acked.trans h1, h2 ▸ State.sendsNext_lane v.send_sendsNext⟩
      have strike := fun (v : State) (h1 : v.sa.acked = 0) (h2 : v.sa.lane = rest) =>
        send (State.pumpSa { v with sa := v.sa.sentRecord })
          ((State.pumpSa_frame _).2.2.1.trans ((v.sa.sentRecord_lane).2.trans h1))
          ((State.pumpSa_frame _).2.1.trans ((v.sa.sentRecord_lane).1.trans h2))
      cases r with
      | lineBegin => exact send _ rfl rfl
      | strike => exact strike _ rfl rfl
      | extend => exact strike _ rfl rfl
      | lineEnd => exact ⟨rfl, List.suffix_refl _⟩
      | calibrate => exact ⟨rfl, List.suffix_refl _⟩
      | cut => exact ⟨rfl, List.suffix_refl _⟩
    exact ⟨_, execRecordSent_record h, key.1, key.2, Sa.presented_first key.1⟩
  · rw [execRecordSent_record h]
    obtain rfl | ⟨a, rfl⟩ := hr <;> rfl
  · exact ⟨_, execRecordSent_record h, State.send_sendsNext _⟩
  · intro u
    refine ⟨⟨_, (execRecordSent_record h).trans (congrArg (fun t => Host.Outcome.next (State.settle t)) (strikeOf hr _)), State.send_sendsNext _⟩,
      rfl, (State.pumpSa_frame _).2.1.trans (Sa.sentRecord_lane _).1, (State.pumpSa_frame _).2.2.1.trans (Sa.sentRecord_lane _).2, fun w b data omitted hw hb => ?_⟩
    intro w'
    have hsent : Sa.sentRecord { s.sa with lane := rest, acked := 0 } =
        { s.sa with lane := rest, acked := 0, assembly := some w', buffers := setAt s.sa.buffers b .free } :=
      Sa.sentRecord_filled (a := { s.sa with lane := rest, acked := 0 }) hw hb
    have hu : (u.sa, u.fs) = pumpStrike s.fdm 16
        { s.sa with lane := rest, acked := 0, assembly := some w', buffers := setAt s.sa.buffers b .free } s.fs := by
      rw [← hsent]
      rfl
    have hsa := congrArg Prod.fst hu
    have hfs := congrArg Prod.snd hu
    dsimp only at hsa hfs
    rw [hsa, hfs]
    refine ⟨?_, fun d hd hfull => ?_, fun ho hn => ?_, fun next ho hf hnext hfull => ?_⟩
    · obtain ⟨-, -, -, hasm⟩ := pumpStrike_frame s.fdm 16
        { s.sa with lane := rest, acked := 0, assembly := some w', buffers := setAt s.sa.buffers b .free } s.fs
      obtain ⟨k, owed, e, hk⟩ := hasm w' rfl
      exact ⟨k, owed, e, hk⟩
    · have hkeep : Sa.buffer { s.sa with lane := rest, acked := 0, assembly := some w', buffers := setAt s.sa.buffers b .free } d =
          s.sa.buffers[d] := setAt_other _ _ _ _ hd
      exact (pumpStrike_buffer _ d 16 _ _ (hkeep.symm ▸ hfull)).trans hkeep
    · rw [pumpStrike_done (w := w') rfl ho (.inl (List.getElem?_eq_none hn))]
      exact ⟨rfl, rfl⟩
    · have hfree : Sa.freeBuffer { s.sa with lane := rest, acked := 0, assembly := some w', buffers := setAt s.sa.buffers b .free } = some b := by
        refine find_eights (by simp) (fun x hx hx' => ?_)
        rw [setAt_other _ _ _ _ hx.ne] at hx'
        exact hfull x (eq_of_beq hx')
      have hnone : Sa.freeBuffer { s.sa with
          lane := rest, acked := 0, assembly := some { w' with fetchPoint := w.fetchPoint + 1 },
          buffers := setAt (setAt s.sa.buffers b .free) b (.fetching w.fetchPoint false) } = none := by
        refine find_eights_none (fun x hx => ?_)
        by_cases hxb : x = b
        · subst hxb
          rw [setAt_same] at hx
          cases hx
        · rw [setAt_other _ _ _ _ hxb, setAt_other _ _ _ _ hxb] at hx
          exact hfull x (eq_of_beq hx)
      have htwice : setAt (setAt s.sa.buffers b .free) b (.fetching w.fetchPoint false) = setAt s.sa.buffers b (.fetching w.fetchPoint false) :=
        Vector.set_set ..
      rw [pumpStrike_next (w := w') rfl ho hf hnext hfree 15,
        pumpStrike_done (w := { w' with fetchPoint := w.fetchPoint + 1 }) rfl ho (.inr hnone), htwice]
      exact ⟨rfl, rfl⟩

/-! ### Lines lost for reach (R142) -/

/-- R142, R156: the notices of lines lost for reach, each line's followed by those of the faces that retire with it. -/
def lossNotices : List QueuedLine → Fdm → List Notice
  | [], _ => []
  | q :: qs, d => .lineLost q.line.header .reach :: (d.decRefs q.line.used).2 ++ lossNotices qs (d.decRefs q.line.used).1

theorem mem_lossNotices {n : Notice} : ∀ {qs : List QueuedLine} {d : Fdm}, n ∈ lossNotices qs d →
    (∃ q ∈ qs, n = .lineLost q.line.header .reach) ∨ ∃ f p, n = .faceRetired f p := by
  intro qs
  induction qs with
  | nil => intro d h; cases h
  | cons q qs ih =>
    intro d h
    simp only [lossNotices, List.cons_append, List.mem_cons, List.mem_append] at h
    obtain h | h | h := h
    · exact .inl ⟨q, List.mem_cons_self, h⟩
    · exact .inr (Fdm.decRefs_notices h)
    · obtain ⟨x, hx, e⟩ | h := ih h
      · exact .inl ⟨x, List.mem_cons_of_mem _ hx, e⟩
      · exact .inr h

/-- R142: the LINE_LOST notices stand in composition order. -/
theorem lossNotices_lost {k : Byte} (hk : ∀ h : LineHeader, (Notice.lineLost h .reach).kind = k)
    (hf : ∀ (f : Fin 128) (p : Fin 8), (Notice.faceRetired f p).kind ≠ k) :
    ∀ (qs : List QueuedLine) (d : Fdm),
      (lossNotices qs d).filter (fun n => n.kind == k) = qs.map (fun q => .lineLost q.line.header .reach) := by
  intro qs
  induction qs with
  | nil => exact fun _ => rfl
  | cons q qs ih =>
    intro d
    have hret : (d.decRefs q.line.used).2.filter (fun n => n.kind == k) = [] := by
      refine List.filter_eq_nil_iff.2 (fun n hn => ?_)
      obtain ⟨f, p, rfl⟩ := Fdm.decRefs_notices hn
      simpa using hf f p
    simp [lossNotices, hk, hret, ih]

/-- R142: what the loss of QUEUED lines changes. -/
theorem State.loseQueued_eq (qs : List QueuedLine) (s : State) :
    s.loseQueued qs = { s with
      olu := (lossNotices qs s.fdm).foldl (fun o n => o.post n) s.olu,
      fdm := (s.fdm.decRefs (qs.flatMap (fun q => q.line.used))).1,
      ex := { s.ex with queued := s.ex.queued.filter (fun y => qs.all (fun x => x.slot != y.slot)) } } := by
  induction qs generalizing s with
  | nil => simp [State.loseQueued, lossNotices, Fdm.decRefs]
  | cons q qs ih =>
    have hfilter (l : List QueuedLine) : (l.filter (fun y => y.slot != q.slot)).filter (fun y => qs.all (fun x => x.slot != y.slot)) =
        l.filter (fun y => (q :: qs).all (fun x => x.slot != y.slot)) := by
      rw [List.filter_filter]
      refine List.filter_congr (fun y _ => ?_)
      rw [List.all_cons, Bool.and_comm, bne_comm]
    have hrefs : (s.fdm.decRefs ((q :: qs).flatMap (fun q => q.line.used))).1 =
        (Fdm.decRefs (qs.flatMap (fun q => q.line.used)) (s.fdm.decRefs q.line.used).1).1 := by
      rw [List.flatMap_cons, Fdm.decRefs_append]
    have hposts : (lossNotices (q :: qs) s.fdm).foldl (fun o n => o.post n) s.olu =
        (lossNotices qs (s.fdm.decRefs q.line.used).1).foldl (fun o n => o.post n)
          ((s.fdm.decRefs q.line.used).2.foldl (fun o n => o.post n) (s.olu.post (.lineLost q.line.header .reach))) := by
      rw [lossNotices, List.cons_append, List.foldl_cons, List.foldl_append]
    unfold State.loseQueued
    rw [ih, hrefs, hposts, ← hfilter, State.loseLine, State.release_eq]
    rfl

/-- R69: a REACH hold by the channel's state. -/
theorem State.reachHold_eq (c : Fin 4) (s : State) :
    s.reachHold c = { s with
      olu := if s.ch[c].state = .composing then s.olu else s.olu.post (heldNotice c .reach s.ch[c]),
      fdm := if s.ch[c].state = .mountWait then s.fdm.dropWaiter c else s.fdm,
      ch := setAt s.ch c (if s.ch[c].state = .composing then { s.ch[c] with holdReq := true }
        else { s.ch[c] with state := .held .reach, holdReq := false }) } := by
  unfold State.reachHold
  split
  · next h =>
    rw [if_pos h, if_pos h, if_neg (by rw [h]; decide)]
    rfl
  · next h =>
    have hc : s.ch[c].state ≠ .composing := by rw [h]; decide
    rw [if_neg hc, if_neg hc, if_pos h]
    rfl
  · next h1 h2 =>
    rw [if_neg h1, if_neg h1, if_neg h2]
    rfl

theorem Olu.post_if {p : Prop} [Decidable p] (o : Olu) (n : Notice) :
    (if p then o else o.post n) = (if p then [] else [n]).foldl (fun o n => o.post n) o := by
  split <;> rfl

/-! ### The film arbiter's runs (R142) -/

theorem State.arbitrate_none {s : State} (h : s.ex.queued = []) (n : Nat) : s.arbitrate n = s := by
  cases n with
  | zero => rfl
  | succ n =>
    unfold State.arbitrate
    rw [h]

theorem State.arbitrate_loses {s : State} {o : QueuedLine} {rest : List QueuedLine} (h : s.ex.queued = o :: rest)
    (hr : s.ex.outOfReach o.line.header.baseline = true) (n : Nat) :
    s.arbitrate (n + 1) = State.arbitrate n (s.loseChannel o.line.header.channel) := by
  rw [State.arbitrate, h]
  exact if_pos hr

theorem State.arbitrate_takes {s : State} {o : QueuedLine} {rest : List QueuedLine} (h : s.ex.queued = o :: rest)
    (hr : s.ex.outOfReach o.line.header.baseline = false) (n : Nat) :
    s.arbitrate (n + 1) = State.take (s.ex.choice o) { s with ex := s.ex.passOver o (s.ex.choice o) } := by
  rw [State.arbitrate, h]
  exact if_neg (by simp [hr])

/-- R142: a channel lost has no line left QUEUED. -/
theorem State.loseChannel_queued (c : Fin 4) (s : State) :
    (s.loseChannel c).ex = { s.ex with
      queued := s.ex.queued.filter (fun y => (s.ex.queued.filter (fun q => q.ofChannel c)).all (fun x => x.slot != y.slot)) } := by
  rw [State.loseChannel, State.reachHold_eq, State.loseQueued_eq]

theorem State.loseChannel_channel {c : Fin 4} {s : State} {q : QueuedLine} (h : q ∈ (s.loseChannel c).ex.queued) :
    q ∈ s.ex.queued ∧ q.line.header.channel ≠ c := by
  rw [State.loseChannel_queued] at h
  obtain ⟨hq, hall⟩ := List.mem_filter.1 h
  refine ⟨hq, fun hc => ?_⟩
  have := List.all_eq_true.1 hall q (List.mem_filter.2 ⟨hq, beq_iff_eq.2 hc⟩)
  simp at this

theorem State.loseChannel_length {s : State} {o : QueuedLine} {rest : List QueuedLine} (h : s.ex.queued = o :: rest) :
    (s.loseChannel o.line.header.channel).ex.queued.length < s.ex.queued.length := by
  have hle : (s.loseChannel o.line.header.channel).ex.queued.length ≤ s.ex.queued.length := by
    rw [State.loseChannel_queued]
    exact List.length_filter_le _ _
  refine lt_of_le_of_ne hle (fun e => ?_)
  have hsame : (s.loseChannel o.line.header.channel).ex.queued = s.ex.queued := by
    rw [State.loseChannel_queued] at e ⊢
    exact List.filter_sublist.eq_of_length e
  have ho : o ∈ (s.loseChannel o.line.header.channel).ex.queued := by
    rw [hsame, h]
    exact List.mem_cons_self
  exact (State.loseChannel_channel ho).2 rfl

/-- R142: as many runs as there are lines are enough. -/
theorem State.arbitrate_enough (n m : Nat) (s : State) (hn : s.ex.queued.length ≤ n) (hm : s.ex.queued.length ≤ m) :
    s.arbitrate n = s.arbitrate m := by
  induction n generalizing m s with
  | zero =>
    have h := List.eq_nil_of_length_eq_zero (Nat.le_zero.1 hn)
    rw [State.arbitrate_none h, State.arbitrate_none h]
  | succ n ih =>
    cases hq : s.ex.queued with
    | nil => rw [State.arbitrate_none hq, State.arbitrate_none hq]
    | cons o rest =>
      obtain ⟨k, rfl⟩ : ∃ k, m = k + 1 := Nat.exists_eq_succ_of_ne_zero (by rw [hq] at hm; simp at hm; omega)
      cases hr : s.ex.outOfReach o.line.header.baseline with
      | true =>
        have hlt := State.loseChannel_length hq
        rw [State.arbitrate_loses hq hr, State.arbitrate_loses hq hr]
        exact ih k _ (by omega) (by omega)
      | false => rw [State.arbitrate_takes hq hr, State.arbitrate_takes hq hr]

/-- R143: a line passed over is the same line with a higher count. -/
theorem Ex.passOver_eq (e : Ex) (o q : QueuedLine) :
    e.passOver o q = { e with queued := e.queued.map (fun y =>
      if q.slot ≠ o.slot ∧ y.slot = o.slot then { y with bypass := y.bypass + 1 } else y) } := by
  unfold Ex.passOver
  split
  · next h => simp [h]
  · next h => simp [h]

/-- R143 to R146: the lines that the arbiter leaves QUEUED were QUEUED. -/
theorem State.take_lines {q y : QueuedLine} {s : State} (h : y ∈ (s.take q).ex.queued) : y ∈ s.ex.queued := by
  have exposed {u : State} (h : y ∈ (u.expose q).ex.queued) : y ∈ u.ex.queued := by
    obtain ⟨x, -, -, -, -, -, hex, -⟩ := State.expose_exposes q u
    rw [State.settle_ex] at hex
    rw [hex] at h
    exact (List.mem_filter.1 h).1
  unfold State.take at h
  split at h
  · exact exposed h
  · split at h
    · exact exposed (u := { s with ex := { s.ex with deferral := s.ex.deferral + 1 } }) h
    · exact h

theorem State.arbitrate_lines (n : Nat) {y : QueuedLine} {s : State} (h : y ∈ (s.arbitrate n).ex.queued) :
    ∃ q ∈ s.ex.queued, q.line = y.line := by
  induction n generalizing s with
  | zero => exact ⟨y, h, rfl⟩
  | succ n ih =>
    cases hq : s.ex.queued with
    | nil =>
      rw [State.arbitrate_none hq, hq] at h
      cases h
    | cons o rest =>
      rw [← hq]
      cases hr : s.ex.outOfReach o.line.header.baseline with
      | true =>
        rw [State.arbitrate_loses hq hr] at h
        obtain ⟨q, hmem, e⟩ := ih h
        exact ⟨q, (State.loseChannel_channel hmem).1, e⟩
      | false =>
        rw [State.arbitrate_takes hq hr] at h
        have hmem := State.take_lines h
        rw [Ex.passOver_eq] at hmem
        obtain ⟨q, hq', e⟩ := List.mem_map.1 hmem
        refine ⟨q, hq', ?_⟩
        rw [← e]
        split <;> rfl

/-! ### The choice (R143) -/

/-- R143: the nearest line of a list, the earlier of equals. -/
theorem Ex.nearest_spec {e : Ex} : ∀ {l : List QueuedLine} {q : QueuedLine}, e.nearest l = some q →
    ∃ older younger, l = older ++ q :: younger ∧ (∀ y ∈ older, e.distance q < e.distance y) ∧
      ∀ y ∈ younger, e.distance q ≤ e.distance y := by
  intro l
  induction l with
  | nil => intro q h; cases h
  | cons x xs ih =>
    intro q h
    unfold Ex.nearest at h
    split at h
    · next r hr =>
      obtain ⟨older, younger, rfl, h1, h2⟩ := ih hr
      split at h
      · next hlt =>
        cases h
        refine ⟨x :: older, younger, rfl, fun y hy => ?_, h2⟩
        obtain rfl | hy := List.mem_cons.1 hy
        · exact hlt
        · exact h1 y hy
      · next hge =>
        cases h
        refine ⟨[], older ++ r :: younger, rfl, fun y hy => (by cases hy), fun y hy => ?_⟩
        obtain hy | hy := List.mem_append.1 hy
        · have := h1 y hy
          omega
        · obtain rfl | hy := List.mem_cons.1 hy
          · omega
          · have := h2 y hy
            omega
    · next hn =>
      cases h
      have hnil : xs = [] := by
        cases xs with
        | nil => rfl
        | cons z zs =>
          unfold Ex.nearest at hn
          split at hn
          · split at hn <;> cases hn
          · cases hn
      subst hnil
      exact ⟨[], [], rfl, fun y hy => (by cases hy), fun y hy => (by cases hy)⟩

theorem Ex.outOfReach_iff (e : Ex) (b : Nat) : e.outOfReach b = false ↔ e.high ≤ b + e.reach := by
  simp only [Ex.outOfReach, decide_eq_false_iff_not]
  omega

/-- R143: O is a candidate. -/
theorem Ex.oldest_candidate {e : Ex} {o : QueuedLine} {rest : List QueuedLine} (h : e.queued = o :: rest) : o ∈ e.candidates := by
  unfold Ex.candidates
  rw [h]
  refine List.mem_filter.2 ⟨List.mem_cons_self, ?_⟩
  rw [List.find?_cons_of_pos (by simp)]
  exact beq_self_eq_true _

/-- R143: below the limit the choice is the reachable candidate with the least travel, the older of equals. -/
theorem Ex.choice_nearest {e : Ex} {o : QueuedLine} {rest : List QueuedLine} (h : e.queued = o :: rest)
    (hr : e.outOfReach o.line.header.baseline = false) (hb : o.bypass < e.bypassLimit) :
    ∃ older younger, e.candidates = older ++ e.choice o :: younger ∧
      (∀ y ∈ older, e.outOfReach y.line.header.baseline = false → e.distance (e.choice o) < e.distance y) ∧
      ∀ y ∈ younger, e.outOfReach y.line.header.baseline = false → e.distance (e.choice o) ≤ e.distance y := by
  have hmem : o ∈ e.candidates.filter (fun q => !e.outOfReach q.line.header.baseline) :=
    List.mem_filter.2 ⟨Ex.oldest_candidate h, by simp [hr]⟩
  obtain ⟨q, hq⟩ : ∃ q, e.nearest (e.candidates.filter (fun q => !e.outOfReach q.line.header.baseline)) = some q := by
    cases hl : e.candidates.filter (fun q => !e.outOfReach q.line.header.baseline) with
    | nil =>
      rw [hl] at hmem
      cases hmem
    | cons x xs =>
      unfold Ex.nearest
      split
      · split <;> exact ⟨_, rfl⟩
      · exact ⟨_, rfl⟩
  have hchoice : e.choice o = q := by
    unfold Ex.choice
    rw [if_neg (by omega), hq]
    rfl
  obtain ⟨as, bs, hsplit, h1, h2⟩ := Ex.nearest_spec hq
  obtain ⟨l1, l2, hl, hl1, hl2⟩ := List.filter_eq_append_iff.1 hsplit
  obtain ⟨m1, m2, rfl, hm1, -, hm2⟩ := List.filter_eq_cons_iff.1 hl2
  rw [hchoice]
  refine ⟨l1 ++ m1, m2, by rw [hl, List.append_assoc], fun y hy hry => ?_, fun y hy hry => ?_⟩
  · obtain hy | hy := List.mem_append.1 hy
    · exact h1 y (hl1 ▸ List.mem_filter.2 ⟨hy, by simp [hry]⟩)
    · exact absurd (by simp [hry]) (hm1 y hy)
  · exact h2 y (hm2 ▸ List.mem_filter.2 ⟨hy, by simp [hry]⟩)

theorem Ex.choice_limit {e : Ex} {o : QueuedLine} (h : e.bypassLimit ≤ o.bypass) : e.choice o = o := if_pos h

theorem Ex.defers_iff (e : Ex) (q : QueuedLine) :
    e.defers q = true ↔ e.lastChannel = some q.line.header.channel ∧ e.film ≤ q.line.header.baseline ∧ e.deferral < e.deferLimit := by
  simp [Ex.defers, and_assoc]

/-! R144: what is done with the line chosen. -/

theorem State.take_exposes {s : State} (h : s.ex.counter < s.ex.interval) (q : QueuedLine) : s.take q = s.expose q :=
  if_pos (by simpa [Ex.due] using h)

theorem State.take_defers {s : State} (h : s.ex.interval ≤ s.ex.counter) {q : QueuedLine} (hd : s.ex.defers q = true) :
    s.take q = State.expose q { s with ex := { s.ex with deferral := s.ex.deferral + 1 } } :=
  (if_neg (by simpa [Ex.due] using h)).trans (if_pos hd)

theorem State.take_calibrates {s : State} (h : s.ex.interval ≤ s.ex.counter) {q : QueuedLine} (hd : ¬ s.ex.defers q = true) :
    s.take q = { s with
      ex := { s.ex with state := .calibrating, chosen := some { slot := q.slot } }, sa := { s.sa with lane := s.sa.lane ++ [.calibrate] } } :=
  (if_neg (by simpa [Ex.due] using h)).trans (if_neg hd)

/-- R146: the lines QUEUED once an exposure has begun. -/
theorem State.exposes_queued {q : QueuedLine} {s t : State} (h : State.exposes q s t) :
    t.ex.queued = s.ex.queued.filter (fun y => y.slot != q.slot) := by
  obtain ⟨x, -, -, -, -, -, e, -⟩ := h
  rw [e]

theorem execFilmArbiter_runs {s : State} (h : s.ex.state = .idle) :
    exec .filmArbiter s = .next (State.arbitrate (s.ex.queued.length + 1) s).settle := by
  simp only [exec, execFilmArbiter, if_pos h]

theorem execFilmArbiter_other {s : State} (h : s.ex.state ≠ .idle) : exec .filmArbiter s = .next s.settle := by
  simp only [exec, execFilmArbiter, if_neg h]

/-- Settles O37. -/
theorem filmArbiterChoosesAndExposes : Obligations.FilmArbiterChoosesAndExposes := by
  intro s
  refine ⟨execFilmArbiter_other, fun h hq => ?_, fun o rest h hq hr => ?_, fun o rest h hq hr => ?_⟩
  · rw [execFilmArbiter_runs h, State.arbitrate_none hq]
  · intro c lost composing left
    have hout : s.ex.outOfReach o.line.header.baseline = true := by
      rw [← Bool.not_eq_false, Ex.outOfReach_iff]
      omega
    have hruns := execFilmArbiter_runs h
    rw [State.arbitrate_loses hq hout] at hruns
    have hl : (s.loseChannel c).ex.state = .idle := by
      rw [State.loseChannel_queued]
      exact h
    have hlt := State.loseChannel_length hq
    have heq : s.loseChannel c = _ := State.reachHold_eq c (State.loseQueued lost s)
    refine ⟨_, s.loseChannel c, lossNotices lost s.fdm, hruns, ?_, State.loseChannel_queued c s, fun q hm => ?_, ?_⟩
    · rw [execFilmArbiter_runs hl, hruns]
      exact congrArg (fun t => Host.Outcome.next (State.settle t)) (State.arbitrate_enough _ _ _ hlt.le (Nat.le_succ _))
    · obtain ⟨y, hy, e⟩ := State.arbitrate_lines _ hm
      rw [← e]
      exact (State.loseChannel_channel hy).2
    · rw [State.loseQueued_eq] at heq
      rw [heq]
      refine ⟨rfl, rfl, fun n hn => mem_lossNotices hn, lossNotices_lost (fun _ => rfl) (fun _ _ => by simp [Notice.kind]) lost s.fdm, ?_, rfl, rfl, rfl,
        rfl, rfl, rfl⟩
      rw [List.foldl_append]
      exact Olu.post_if _ _
  · intro reachable
    have hin : s.ex.outOfReach o.line.header.baseline = false := (s.ex.outOfReach_iff _).2 hr
    have ho : o ∈ s.ex.queued := hq ▸ List.mem_cons_self
    have htake : s.arbitrate (s.ex.queued.length + 1) = State.take (s.ex.choice o) { s with ex := s.ex.passOver o (s.ex.choice o) } :=
      State.arbitrate_takes hq hin _
    obtain ⟨hmem, hnear, -⟩ := Ex.choice_spec ho hin
    refine ⟨s.ex.choice o, hmem, Ex.choice_limit, fun hb => ⟨(s.ex.outOfReach_iff _).1 hnear, ?_⟩, Ex.passOver_eq _ _ _, ?_⟩
    · obtain ⟨older, younger, e, h1, h2⟩ := Ex.choice_nearest hq hin hb
      exact ⟨older, younger, e, fun y hy hry => h1 y hy ((s.ex.outOfReach_iff _).2 hry), fun y hy hry => h2 y hy ((s.ex.outOfReach_iff _).2 hry)⟩
    · intro deferred
      rw [execFilmArbiter_runs h, htake, Ex.passOver_eq]
      have hdef : s.ex.defers (s.ex.choice o) = true ↔ deferred := s.ex.defers_iff _
      refine ⟨fun hd => ?_, fun hd hnot => ?_⟩
      · by_cases hcount : s.ex.counter < s.ex.interval
        · rw [if_pos hcount]
          refine ⟨_, congrArg (fun u => Host.Outcome.next (State.settle u)) (State.take_exposes ?_ _), State.expose_exposes _ _,
            State.exposes_queued (State.expose_exposes _ _)⟩
          exact hcount
        · rw [if_neg hcount]
          refine ⟨_, congrArg (fun u => Host.Outcome.next (State.settle u)) (State.take_defers ?_ ?_), State.expose_exposes _ _,
            State.exposes_queued (State.expose_exposes _ _)⟩
          · exact Nat.le_of_not_lt hcount
          · exact hdef.2 (hd.resolve_left hcount)
      · refine congrArg (fun u => Host.Outcome.next (State.settle u)) (State.take_calibrates ?_ ?_)
        · exact hd
        · exact fun e => hnot (hdef.1 e)

end Sys2Proof.Machine
end


section
/-! PROOF. The fetch scheduler: FETCH_SET, the choice, the holds of the banks and the entry of held requests (R106, R109 to R111,
R116). -/

namespace Sys2Proof.Machine

/-! ### FETCH_SET (R116) -/

theorem actFetchSet_form {fields : List FieldEntry} (h : fieldsOk 2 fields = false) (s : State) :
    actFetchSet fields s = (s, .refuse .form 0) := if_pos h

theorem actFetchSet_sets {fields : List FieldEntry} (h : fieldsOk 2 fields = true) (s : State) :
    let b := (fieldValue fields 1).getD s.fs.bypassLimit
    let n := (fieldValue fields 2).getD s.fs.hold
    let f : Fs := { s.fs with bypassLimit := min 15 b, hold := min 15 n }
    actFetchSet fields s = ({ s with fs := f },
      .accept (clampedList ((if 15 < b then [1] else []) ++ (if 15 < n then [2] else [])) ++ u16 (min 15 b) ++ u16 (min 15 n) ++ f.report)) :=
  if_neg (by simp [h])

/-- Settles O21. -/
theorem fetchSetSetsTheScheduler : Obligations.FetchSetSetsTheScheduler := by
  intro s tag fields hs hlen b h f
  have hform : (Order.fetchSet fields).formOk = true := by simp [Order.formOk, hlen]
  refine ⟨fun hok => ?_, fun hbad => ?_⟩
  · exact exec_order_answers (.fetchSet fields) rfl hs hform rfl (actFetchSet_sets hok (s.inHand ⟨0x28, tag, 0⟩))
  · exact exec_order_answers (.fetchSet fields) rfl hs hform rfl (actFetchSet_form hbad _)

/-! ### The choice (R110, R111) -/

theorem Fs.isHit_busy {f : Fs} {r : FetchReq} (h : f.isBusy r = true) : f.isHit r = false := by
  unfold Fs.isHit
  rw [eq_of_beq h]

/-- R111: the oldest request's count has risen by 1. -/
def passedOver : List FetchReq → List FetchReq
  | [] => []
  | x :: xs => { x with bypass := x.bypass + 1 } :: xs

/-- R111: the request chosen leaves the queue, and the oldest is passed over when another was chosen. -/
theorem Fs.afterChoice_split {f : Fs} {older later : List FetchReq} {r : FetchReq} (hq : f.queue = older ++ r :: later)
    (hr : r ∉ older) : f.afterChoice r = passedOver older ++ later := by
  unfold Fs.afterChoice
  rw [hq]
  cases older with
  | nil => exact if_pos rfl
  | cons o rest =>
    obtain ⟨ho, hrest⟩ := not_or.1 (fun e => hr (List.mem_cons.2 e))
    refine (if_neg ho).trans (congrArg (_ :: ·) ?_)
    exact (List.erase_append_right _ hrest).trans (congrArg (rest ++ ·) (List.erase_cons_head r later))

/-- R110: the first of the queue that passes a test is the one found. -/
theorem find_first {α : Type} {p : α → Bool} {older later : List α} {r : α} (ho : ∀ x ∈ older, p x = false) (hr : p r = true) :
    (older ++ r :: later).find? p = some r ∧ r ∉ older := by
  refine ⟨?_, fun h => by simp [ho r h] at hr⟩
  rw [List.find?_append, List.find?_eq_none.2 (fun x hx => by simp [ho x hx]), List.find?_cons_of_pos hr]
  rfl

/-- Settles O22. -/
theorem fetchChoiceServesByAgeAndHits : Obligations.FetchChoiceServesByAgeAndHits := by
  intro s o young hp hq served waits passed
  have hne : s.fs.queue ≠ [] := by simp [hq]
  have hpassed (l : List FetchReq) : passed l = passedOver l := by cases l <;> rfl
  have serves {r : FetchReq} {older later : List FetchReq} (hc : s.fs.chosen = some r) (hl : s.fs.queue = older ++ r :: later)
      (hr : r ∉ older) : served r (passed older ++ later) := by
    show execFetchChoice s = _
    unfold execFetchChoice
    rw [if_pos ⟨hp, hne⟩, hc, hpassed, ← Fs.afterChoice_split hl hr]
    rfl
  have waiting (hc : s.fs.chosen = none) : waits := by
    show execFetchChoice s = _
    unfold execFetchChoice
    rw [if_pos ⟨hp, hne⟩, hc]
    refine congrArg (fun u => Host.Outcome.next (State.settle u)) ?_
    unfold State.fetchWaiting
    dsimp only
    split <;> rfl
  have aged (h : s.fs.bypassLimit ≤ o.bypass) : s.fs.chosen = if s.fs.isBusy o then none else some o := by
    unfold Fs.chosen
    rw [hq]
    exact if_pos h
  have young' (h : o.bypass < s.fs.bypassLimit) :
      s.fs.chosen = ((o :: young).find? s.fs.isHit).or ((o :: young).find? (fun r => !s.fs.isBusy r)) := by
    unfold Fs.chosen
    rw [hq]
    exact if_neg (Nat.not_le.2 h)
  refine ⟨fun h hb => ?_, fun h hb => ?_, fun h => ⟨fun older r later hl ho hr => ?_, fun hn older r later hl ho hr => ?_, fun hb => ?_⟩⟩
  · exact serves (older := []) (by rw [aged h, hb]; rfl) hq List.not_mem_nil
  · exact waiting (by rw [aged h, hb]; rfl)
  · obtain ⟨hf, hm⟩ := find_first (later := later) ho hr
    exact serves (by rw [young' h, hl, hf]; rfl) (hq.trans hl) hm
  · obtain ⟨hf, hm⟩ := find_first (p := fun x => !s.fs.isBusy x) (later := later) (r := r) (fun x hx => by simp [ho x hx]) (by simp [hr])
    refine serves ?_ (hq.trans hl) hm
    rw [young' h, List.find?_eq_none.2 (fun x hx => by simp [hn x hx]), hl, hf]
    rfl
  · refine waiting ?_
    rw [young' h, List.find?_eq_none.2 (fun x hx => by simp [Fs.isHit_busy (hb x hx)]), List.find?_eq_none.2 (fun x hx => by simp [hb x hx])]
    rfl

/-! ### Requests made (R109) -/

/-- The scheduler has taken some requests more, queued or held, and is otherwise as it was. -/
def Fs.Asked (f g : Fs) : Prop := ∃ q h, g = { f with queue := f.queue ++ q, held := f.held ++ h }

theorem Fs.Asked.refl (f : Fs) : f.Asked f := ⟨[], [], by simp⟩

theorem Fs.Asked.trans {f g k : Fs} (h1 : f.Asked g) (h2 : g.Asked k) : f.Asked k := by
  obtain ⟨q, h, rfl⟩ := h1
  obtain ⟨q', h', rfl⟩ := h2
  exact ⟨q ++ q', h ++ h', by simp⟩

theorem Fs.Asked.path {f g : Fs} (h : f.Asked g) : g.path = f.path := by
  obtain ⟨q, h, rfl⟩ := h
  rfl

theorem Fs.request_asked (f : Fs) (r : FetchReq) : f.Asked (f.request r) := by
  unfold Fs.request
  split
  · exact ⟨[_], [], by rw [List.append_nil]⟩
  · exact ⟨[], [_], by rw [List.append_nil]⟩

theorem pumpMount_asked (n : Nat) (d : Fdm) (f : Fs) : f.Asked (pumpMount n d f).2 := by
  fun_induction pumpMount n d f with
  | case2 n d f l _ len _ _ ih => exact (f.request_asked _).trans ih
  | _ => exact .refl _

theorem State.pumpLoader_asked (s : State) : s.fs.Asked s.pumpLoader.fs := pumpMount_asked 4 s.fdm s.fs

theorem pumpStrike_asked (d : Fdm) (n : Nat) (a : Sa) (f : Fs) : f.Asked (pumpStrike d n a f).2 := by
  fun_induction pumpStrike d n a f with
  | case4 n a f w _ _ b rest _ ih =>
    refine .trans ?_ ih
    split
    · exact f.request_asked _
    · exact .refl f
  | case5 n a f w _ _ _ r b _ _ ih => exact (f.request_asked _).trans ih
  | _ => exact .refl _

theorem State.pumpSa_asked (s : State) : s.fs.Asked s.pumpSa.fs := pumpStrike_asked s.fdm 16 s.sa s.fs

/-! ### Holds, closes and entries (R103, R106, R109) -/

/-- A held request that enters the queue may be followed by requests of its owner, which come after it. -/
theorem State.entered_asked (q : Requester) (s : State) : s.fs.Asked (s.entered q).fs := by
  cases q with
  | mount => exact s.pumpLoader_asked
  | strike => exact s.pumpSa_asked
  | sequencer => exact .refl _
  | link =>
    have h : (s.answer (.accept [])).fs = s.fs := (State.answer_touches _ _).fs (by decide)
    exact h ▸ .refl s.fs

theorem execHoldDeadlineExpiry_closes {s : State} {b : Fin 8} {row d : Nat} (h : s.fs.banks[b] = .opened row (some d)) :
    execHoldDeadlineExpiry b s = .next ({ s with time := max s.time d, fs := { s.fs with
      banks := setAt s.fs.banks b .closed, closing := setAt s.fs.closing b true } } : State).settle := by
  unfold execHoldDeadlineExpiry
  rw [h]

theorem execFetchRequestEntry_enters {s : State} {r : FetchReq} {rest : List FetchReq} (hh : s.fs.held = r :: rest)
    (hq : s.fs.queue.length < 32) :
    execFetchRequestEntry s = .next (State.entered r.requester { s with fs := s.fs.enter r rest }).settle := by
  unfold execFetchRequestEntry
  rw [hh]
  exact if_pos hq

/-- Settles O24. -/
theorem bankAndEntryEvents : Obligations.BankAndEntryEvents := by
  refine ⟨fun s b row d h => execHoldDeadlineExpiry_closes h, fun s b => rfl, fun s r rest hh hq => ?_⟩
  intro t
  have henters : exec .fetchRequestEntry s = .next (State.entered r.requester t).settle := execFetchRequestEntry_enters hh hq
  refine ⟨fun e => ?_, fun e => ?_, ?_⟩
  · rw [henters, e]
    rfl
  · rw [henters, e]
    rfl
  · obtain ⟨q, k, hfs⟩ := t.entered_asked r.requester
    exact ⟨_, q, henters, by rw [State.settle_fs, hfs]⟩

end Sys2Proof.Machine
end


section
/-! PROOF. A transfer's completion and what its data does for the requester: the link, the sequencer, the strike assembler and the
mount loader (R106, R112, R113). -/

namespace Sys2Proof.Machine

/-! ### The completion (R106, R107, R112) -/

theorem execTransferComplete_delivers {s : State} {r : FetchReq} {wanted : Bool} (hp : s.fs.path = .moving r wanted)
    (hpage : r.page < 4096) (hlen : r.offset + r.length ≤ 4096) :
    execTransferComplete s =
      .next (((if wanted then (s.transferred r).deliver r (s.fetched r) else s.transferred r).idleReport
        (s.transferred r).fs.isIdle).settle) := by
  unfold execTransferComplete
  rw [hp]
  exact if_neg (by omega)

theorem Sq.sendWaiting_eq (q : Sq) :
    q.sendWaiting = if q.state = .erasing then { q with eraseSent := true }
      else if q.state = .programming ∧ q.step = .claimed then { q with step := .sent } else q := by
  unfold Sq.sendWaiting
  split
  · next h => rw [if_pos h]
  · next h =>
    rw [if_neg (show ¬ q.state = .erasing by rw [h]; decide)]
    by_cases hc : q.step = .claimed
    · rw [if_pos hc]
      exact (if_pos ⟨h, hc⟩).symm
    · rw [if_neg hc]
      exact (if_neg (fun k => hc k.2)).symm
  · next h1 h2 => rw [if_neg h1, if_neg (fun h => h2 h.1)]

theorem Sq.sendWaiting_idle {q : Sq} (h1 : q.state ≠ .erasing) (h2 : q.state = .programming → q.step ≠ .claimed) :
    q.sendWaiting = q := by
  rw [Sq.sendWaiting_eq, if_neg h1, if_neg (fun h => h2 h.1 h.2)]

/-- With no erase and no line waiting for it, a transfer's completion changes the fetch scheduler alone. -/
theorem State.transferred_idle {s : State} (r : FetchReq) (h1 : s.sq.state ≠ .erasing)
    (h2 : s.sq.state = .programming → s.sq.step ≠ .claimed) :
    s.transferred r = { s with fs := s.fs.completed s.time r } := by
  rw [State.transferred, Sq.sendWaiting_idle h1 h2]

theorem Fs.completed_path (f : Fs) (now : Nat) (r : FetchReq) : (f.completed now r).path = .free := by
  unfold Fs.completed
  dsimp only
  split
  · rfl
  · split <;> rfl

theorem Fs.completed_held (f : Fs) (now : Nat) (r : FetchReq) : (f.completed now r).held = f.held := by
  unfold Fs.completed
  dsimp only
  split
  · rfl
  · split <;> rfl

/-- R128: only a suspended erase resumes. -/
theorem State.idleReport_none {s : State} (h : s.sq.state ≠ .eraseSuspended) (wasIdle : Bool) : s.idleReport wasIdle = s := by
  unfold State.idleReport
  rw [if_neg fun hi => h hi.2.1]
  exact if_neg fun hi => h hi.2

theorem State.idleReport_path (wasIdle : Bool) (s : State) : (s.idleReport wasIdle).fs.path = s.fs.path := by
  unfold State.idleReport State.fetchesIdle
  split
  · dsimp only
    split <;> rfl
  · split <;> rfl

/-- Where the delivery made no request, the report does what fetches idle does. -/
theorem State.idleReport_plain {s : State} {wasIdle : Bool} (h : s.fs.isIdle = wasIdle) : s.idleReport wasIdle = s.fetchesIdle := by
  unfold State.idleReport
  exact if_neg fun hi => by
    rw [hi.1] at h
    rw [h] at hi
    cases hi.2.2

/-- R128: an erase resumes when no fetch is left, and the report is otherwise without effect. -/
theorem State.fetchesIdle_eq (s : State) :
    s.fetchesIdle = { s with
      fs := if s.sq.state = .eraseSuspended ∧ s.fs.isIdle = true then s.fs.claimAll else s.fs,
      sq := if s.sq.state = .eraseSuspended ∧ s.fs.isIdle = true then { s.sq with state := .erasing } else s.sq } := by
  unfold State.fetchesIdle
  by_cases h : s.sq.state = .eraseSuspended ∧ s.fs.isIdle = true
  · rw [if_pos h.symm, if_pos h, if_pos h]
  · rw [if_neg (fun k => h k.symm), if_neg h, if_neg h]

/-! ### The data path after the delivery -/

theorem sendNext_asked (n : Nat) (s : State) : s.fs.Asked (sendNext n s).fs := by
  induction n generalizing s with
  | zero => exact .refl _
  | succ n ih =>
    have pumps (a : Sa) : s.fs.Asked (State.pumpSa { s with sa := a }).fs := State.pumpSa_asked { s with sa := a }
    unfold sendNext
    split
    · split
      · exact .refl _
      · split
        · exact .refl _
        · split
          · exact (pumps _).trans (ih _)
          · exact .refl _
    · exact .refl _

theorem State.masterArrived_asked (r : FetchReq) (data : Bytes) (s : State) : s.fs.Asked (s.masterArrived r data).fs := by
  unfold State.masterArrived
  dsimp only
  split
  · split
    · exact sendNext_asked 9 _
    · split
      · exact .refl _
      · split
        · exact sendNext_asked 9 _
        · exact State.pumpSa_asked _
  · exact .refl _

theorem State.mountPage_asked (r : FetchReq) (data : Bytes) (s : State) : s.fs.Asked (s.mountPage r data).fs := by
  have ends (d : Fdm) (l : Load) (fail : Option MountCause) : s.fs.Asked (State.loadEnds l fail { s with fdm := d }).fs := by
    rw [(State.loadEnds_touches l fail { s with fdm := d }).fs (by decide)]
    exact .refl _
  have pumps (d : Fdm) : s.fs.Asked (State.pumpLoader { s with fdm := d }).fs := State.pumpLoader_asked { s with fdm := d }
  unfold State.mountPage
  split
  · exact .refl _
  · dsimp only
    split
    · split
      · exact ends _ _ _
      · split
        · exact ends _ _ _
        · exact pumps _
    · split
      · exact ends _ _ _
      · exact pumps _

theorem State.lineRead_path (data : Bytes) (s : State) : (s.lineRead data).fs.path = s.fs.path := by
  unfold State.lineRead
  split
  · rfl
  · split
    · rw [(State.failLine_touches _ _ s).fs (by decide)]
    · split
      · rw [(State.failLine_touches _ _ s).fs (by decide)]
      · rfl

theorem State.pageRead_path (data : Bytes) (s : State) : (s.pageRead data).fs.path = s.fs.path := by
  obtain e | ⟨found, e⟩ | ⟨c, n, -, e⟩ := s.pageRead_cases data <;> rw [e]
  · rfl
  · exact (s.fs.request_asked _).path

/-- R113: the delivery leaves the data path as it is. -/
theorem State.deliver_path (r : FetchReq) (data : Bytes) (s : State) : (s.deliver r data).fs.path = s.fs.path := by
  unfold State.deliver
  split
  · exact (s.mountPage_asked r data).path
  · exact (s.masterArrived_asked r data).path
  · unfold State.sequencerRead
    split
    · exact s.lineRead_path data
    · exact s.pageRead_path data
    · rfl
  · rfl

/-- R113: only the sequencer's own data changes the sequencer. -/
theorem State.deliver_sq {r : FetchReq} (h : r.requester ≠ .sequencer) (data : Bytes) (s : State) : (s.deliver r data).sq = s.sq := by
  unfold State.deliver
  split
  · exact (s.mountPage_touches r data).sq (by decide)
  · exact (s.masterArrived_touches r data).sq (by decide)
  · next e => exact absurd e h
  · rfl

/-- R113: an erase takes no data. -/
theorem State.deliver_sq_erasing {s : State} (h : s.sq.state = .erasing) (r : FetchReq) (data : Bytes) : (s.deliver r data).sq = s.sq := by
  by_cases hr : r.requester = .sequencer
  · unfold State.deliver State.sequencerRead
    rw [hr, h]
  · exact State.deliver_sq hr data s

/-! ### The sequencer's data (R123, R130) -/

theorem any_not_blank_iff (data : Bytes) : (data.any (fun b => b != 255)) = true ↔ ¬ ∀ b ∈ data, b = 255 := by simp

theorem targetTest_protect {q : Sq} {d : Fdm} {block base n : Nat} (h : q.windowed block = true) :
    targetTest q d block base n = some .protect := if_pos h

theorem targetTest_inUse {q : Sq} {d : Fdm} {block base n : Nat} (h : q.windowed block = false) (hp : d.protects base n = true) :
    targetTest q d block base n = some .inUse := (if_neg (by simp [h])).trans (if_pos hp)

theorem targetTest_none {q : Sq} {d : Fdm} {block base n : Nat} (h : q.windowed block = false) (hp : d.protects base n = false) :
    targetTest q d block base n = none := (if_neg (by simp [h])).trans (if_neg (by simp [hp]))

/-- R123: a line that fails before its program ends its session in LOCKED. -/
theorem State.failLine_eq {s : State} {k : ErrorKinds} {l : ProgLine} {rest : List ProgLine} (hk : k ≠ {}) (hstep : s.sq.step = .read)
    (hb : s.sq.buffer = l :: rest) :
    s.failLine l k = State.post
      (.storeDone (.program s.sq.programmed (min 65535 (s.sq.discarded + rest.length)) (some (l.page, l.offset))) .locked k)
      { s with sq := { s.sq with
        state := .locked, kinds := k, buffer := [], failed := some (l.page, l.offset),
        discarded := min 65535 (s.sq.discarded + rest.length), lockPending := false } } := by
  have he : k.isEmpty = false := beq_eq_false_iff_ne.2 hk
  unfold State.failLine State.endSession
  dsimp only
  rw [he, hb, ← hstep]
  rfl

theorem State.claimLine_free {s : State} (h : s.fs.path = .free) (l : ProgLine) :
    s.claimLine l = { s with
      fs := { s.fs with banks := setAt s.fs.banks (bankOf l.page) .busy }, sq := { s.sq with step := .sent } } := by
  unfold State.claimLine
  rw [h]
  rfl

theorem State.lineRead_notBlank {s : State} {l : ProgLine} {rest : List ProgLine} {data : Bytes} (hb : s.sq.buffer = l :: rest)
    (h : ¬ ∀ b ∈ data, b = 255) : s.lineRead data = s.failLine l { s.sq.kinds with programFail := true } := by
  unfold State.lineRead
  rw [hb]
  exact if_pos ((any_not_blank_iff data).2 h)

theorem State.lineRead_blank {s : State} {l : ProgLine} {rest : List ProgLine} {data : Bytes} (hb : s.sq.buffer = l :: rest)
    (h : ∀ b ∈ data, b = 255) :
    s.lineRead data = match targetTest s.sq s.fdm (l.page / 64) l.page 1 with
      | some e => s.failLine l (s.sq.kinds.add e)
      | none => s.claimLine l := by
  unfold State.lineRead
  rw [hb]
  exact if_neg (fun k => (any_not_blank_iff data).1 k h)

theorem scanUp_finds {before after : Bytes} {v : Byte} (h : ∀ b ∈ before, b = 255) (hv : v ≠ 255) (o : Nat) :
    scanUp o (before ++ v :: after) = some (o + before.length, v) := by
  induction before generalizing o with
  | nil => exact if_neg hv
  | cons b bs ih =>
    obtain ⟨hb, hbs⟩ := List.forall_mem_cons.1 h
    refine (if_pos hb).trans ((ih hbs (o + 1)).trans ?_)
    rw [List.length_cons, Nat.add_right_comm, Nat.add_assoc]

theorem scanUp_blank {data : Bytes} (h : ∀ b ∈ data, b = 255) (o : Nat) : scanUp o data = none := by
  induction data generalizing o with
  | nil => rfl
  | cons b bs ih =>
    obtain ⟨hb, hbs⟩ := List.forall_mem_cons.1 h
    exact (if_pos hb).trans (ih hbs (o + 1))

theorem scanDown_blank {data : Bytes} (h : ∀ b ∈ data, b = 255) (o : Nat) : scanDown o data = none := by
  induction data generalizing o with
  | nil => rfl
  | cons b bs ih =>
    obtain ⟨hb, hbs⟩ := List.forall_mem_cons.1 h
    rw [scanDown, ih hbs]
    exact if_pos hb

theorem scanDown_finds {before after : Bytes} {v : Byte} (h : ∀ b ∈ after, b = 255) (hv : v ≠ 255) (o : Nat) :
    scanDown o (before ++ v :: after) = some (o + before.length, v) := by
  induction before generalizing o with
  | nil =>
    rw [List.nil_append, scanDown, scanDown_blank h]
    exact if_neg hv
  | cons b bs ih =>
    rw [List.cons_append, scanDown, ih (o + 1), List.length_cons, Nat.add_right_comm, Nat.add_assoc]

/-- R130: the scan of a page in the direction of the check. -/
def BlankCheck.scan (k : BlankCheck) (data : Bytes) : Option (Nat × Byte) := if k.down then scanDown 0 data else scanUp 0 data

theorem BlankCheck.scan_finds (k : BlankCheck) {before after : Bytes} {v : Byte} (hv : v ≠ 255)
    (h : ∀ b ∈ (if k.down then after else before), b = 255) : k.scan (before ++ v :: after) = some (before.length, v) := by
  unfold BlankCheck.scan
  cases hd : k.down with
  | true =>
    have hs := scanDown_finds (before := before) (after := after) (by simpa [hd] using h) hv 0
    rwa [Nat.zero_add] at hs
  | false =>
    have hs := scanUp_finds (before := before) (after := after) (by simpa [hd] using h) hv 0
    rwa [Nat.zero_add] at hs

theorem BlankCheck.scan_blank (k : BlankCheck) {data : Bytes} (h : ∀ b ∈ data, b = 255) : k.scan data = none := by
  unfold BlankCheck.scan
  rw [scanDown_blank h, scanUp_blank h, ite_self]

theorem State.pageRead_found {s : State} {k : BlankCheck} {data : Bytes} {o : Nat} {v : Byte} (hk : s.sq.check = some k)
    (h : k.scan data = some (o, v)) : s.pageRead data = s.endCheck (some (k.next, o, v)) := by
  unfold BlankCheck.scan at h
  unfold State.pageRead
  rw [hk]
  dsimp only
  rw [h]

theorem State.pageRead_blank {s : State} {k : BlankCheck} {data : Bytes} (hk : s.sq.check = some k) (h : k.scan data = none) :
    s.pageRead data = if k.next = (if k.down then k.first else k.last) then s.endCheck none
      else { s with sq := { s.sq with check := some { k with next := if k.down then k.next - 1 else k.next + 1 } },
                    fs := s.fs.request (pageFetch (if k.down then k.next - 1 else k.next + 1)) } := by
  unfold BlankCheck.scan at h
  unfold State.pageRead
  rw [hk]
  dsimp only
  rw [h]

/-! ### Masters (R163) -/

theorem State.masterArrived_passes {s : State} {r : FetchReq} {data : Bytes} {w : Assembly} {i : Nat} {again : Bool}
    (ha : s.sa.assembly = some w) (hb : s.sa.buffers[(Fin.ofNat 8 r.ref : Fin 8)] = .fetching i again) (hm : masterPasses data = true) :
    s.masterArrived r data =
      State.send { s with sa := { s.sa with buffers := setAt s.sa.buffers (Fin.ofNat 8 r.ref) (.filled i data false) } } := by
  unfold State.masterArrived
  dsimp only
  rw [ha, hb]
  exact if_pos hm

/-- R163: a failed master marks its line DAMAGED. -/
def State.damaged (s : State) : State := { s with ex := s.ex.markLine (fun m => { m with damaged := true }) }

theorem State.masterArrived_fails {s : State} {r : FetchReq} {data : Bytes} {w : Assembly} {i : Nat} {again : Bool} {q : StrikeRec}
    (ha : s.sa.assembly = some w) (hb : s.sa.buffers[(Fin.ofNat 8 r.ref : Fin 8)] = .fetching i again) (hm : masterPasses data = false)
    (hq : w.list[i]? = some q) :
    s.masterArrived r data =
      if again || q.extend || q.glyph == (s.fdm.pos[q.pos].metrics).missing then
        State.send { s.damaged with sa := { s.sa with buffers := setAt s.sa.buffers (Fin.ofNat 8 r.ref) (.filled i data true) } }
      else State.pumpSa { s.damaged with sa := { s.sa with
        buffers := setAt s.sa.buffers (Fin.ofNat 8 r.ref) (.fetching i true), assembly := some { w with owed := w.owed ++ [Fin.ofNat 8 r.ref] } } } := by
  unfold State.masterArrived
  dsimp only
  rw [ha, hb]
  dsimp only
  rw [if_neg (by simp [hm]), hq]
  rfl

/-- R163: with nothing else owed, nothing left to fetch and nothing held, the replacement is requested at once. -/
theorem State.pumpSa_replaces {s : State} {w : Assembly} {b : Fin 8} {i : Nat} {again : Bool} {q : StrikeRec}
    (hw : s.sa.assembly = some { w with owed := [b] }) (ho : w.owed = []) (hn : w.list.length ≤ w.fetchPoint)
    (hh : s.fs.holdsFor .strike = false) (hb : s.sa.buffers[b] = .fetching i again) (hq : w.list[i]? = some q) :
    s.pumpSa = { s with
      sa := { s.sa with assembly := some w }, fs := s.fs.request (masterFetch s.fdm q.pos (s.fdm.pos[q.pos].metrics).missing b) } := by
  have hr : s.sa.replacement s.fdm { w with owed := [b] } b = some (masterFetch s.fdm q.pos (s.fdm.pos[q.pos].metrics).missing b) := by
    unfold Sa.replacement
    rw [hb]
    dsimp only
    rw [hq]
    rfl
  have hp : pumpStrike s.fdm 16 s.sa s.fs =
      ({ s.sa with assembly := some w }, s.fs.request (masterFetch s.fdm q.pos (s.fdm.pos[q.pos].metrics).missing b)) := by
    rw [pumpStrike, hw]
    dsimp only
    rw [if_neg (by simp [hh]), hr, ← ho]
    exact pumpStrike_done rfl ho (.inl (List.getElem?_eq_none hn)) 15
  unfold State.pumpSa
  rw [hp]

end Sys2Proof.Machine
end


section
/-! PROOF. The end of a load, the loader's next pages (R33 to R35), and what each transfer's data does. -/

namespace Sys2Proof.Machine

/-! ### A load's end (R35) -/

theorem setAt_twice {α : Type} {n : Nat} (v : Vector α n) (i : Fin n) (x y : α) : setAt (setAt v i x) i y = setAt v i y := by
  simp [setAt]

theorem Fdm.retireFrom_stays {d : Fdm} {p : Fin 8} {f : Fin 128} (hf : d.pos[p].state.face = some f) (hd : d.dir[f].state ≠ .withdrawing) :
    d.retireFrom p = (d, []) := by
  unfold Fdm.retireFrom
  rw [hf]
  exact if_neg hd

theorem Fdm.retireFrom_retires {d : Fdm} {p : Fin 8} {f : Fin 128} (hf : d.pos[p].state.face = some f) (hd : d.dir[f].state = .withdrawing) :
    d.retireFrom p = ({ d with pos := setAt d.pos p {}, dir := setAt d.dir f {} }, [.faceRetired f p]) := by
  unfold Fdm.retireFrom
  rw [hf]
  exact if_pos hd

/-- R35: what a load leaves in its position. -/
def Load.place (l : Load) (fail : Option MountCause) (m : MountPos) : MountPos :=
  match fail with
  | none => { m with state := .mounted l.face, count := 0 }
  | some why => { state := .failed l.face why }

/-- R35: the notice of a load's end. -/
def Load.notice (l : Load) (fail : Option MountCause) (m : MountPos) : Notice :=
  match fail with
  | none => .mountDone l.face l.pos m.metrics.e m.metrics.glyphs.length l.evicted
  | some why => .mountFailed l.face l.pos why l.evicted

theorem Load.place_face (l : Load) (fail : Option MountCause) (m : MountPos) : (l.place fail m).state.face = some l.face := by
  cases fail <;> rfl

/-- R35: the mount unit at a load's end, before a WITHDRAWING face retires. -/
def Fdm.loaded (d : Fdm) (l : Load) (fail : Option MountCause) (m : MountPos) : Fdm :=
  { d with
    pos := setAt d.pos l.pos (l.place fail m), load := none, requests := d.requests.filter (fun q => q.face != l.face),
    recency := d.recency.filter (fun p => decide (p ≠ l.pos)) ++ [l.pos] }

theorem Fdm.loaded_face (d : Fdm) (l : Load) (fail : Option MountCause) (m : MountPos) :
    (d.loaded l fail m).pos[l.pos].state.face = some l.face :=
  (congrArg (fun x : MountPos => x.state.face) (setAt_same d.pos l.pos (l.place fail m))).trans (l.place_face fail m)

/-- The end of a load, from the content that its position holds. -/
theorem endLoad_eq (d : Fdm) (l : Load) (fail : Option MountCause) (m : MountPos) :
    ({ (endLoad (d.setPos l.pos m) l fail).1 with
        load := none, requests := (endLoad (d.setPos l.pos m) l fail).1.requests.filter (fun q => q.face != l.face) } : Fdm) =
      d.loaded l fail m ∧ (endLoad (d.setPos l.pos m) l fail).2 = l.notice fail m := by
  have hm : (d.setPos l.pos m).pos[l.pos] = m := setAt_same d.pos l.pos m
  unfold endLoad
  dsimp only
  rw [hm]
  cases fail with
  | none => exact ⟨congrArg (fun v => { d.loaded l none m with pos := v }) (setAt_twice d.pos l.pos m _), rfl⟩
  | some why => exact ⟨congrArg (fun v => { d.loaded l (some why) m with pos := v }) (setAt_twice d.pos l.pos m _), rfl⟩

/-- The channels that wait for a face. -/
def Fdm.waitersOf (d : Fdm) (f : Fin 128) : List (Fin 4) := ((d.requests.find? (fun q => q.face == f)).map (·.waiters)).getD []

theorem State.loadEnds_eq (l : Load) (fail : Option MountCause) (m : MountPos) (s : State) :
    State.loadEnds l fail { s with fdm := s.fdm.setPos l.pos m } =
      State.wake (s.fdm.waitersOf l.face) { s with
        fdm := ((s.fdm.loaded l fail m).retireFrom l.pos).1,
        olu := ((s.fdm.loaded l fail m).retireFrom l.pos).2.foldl (fun o n => o.post n) (s.olu.post (l.notice fail m)) } := by
  obtain ⟨hd, hn⟩ := endLoad_eq s.fdm l fail m
  have posted (d : Fdm) (n : Notice) := State.postAll_eq (d.retireFrom l.pos).2 { s.post n with fdm := (d.retireFrom l.pos).1 }
  have h := posted { (endLoad (s.fdm.setPos l.pos m) l fail).1 with
    load := none, requests := (endLoad (s.fdm.setPos l.pos m) l fail).1.requests.filter (fun q => q.face != l.face) }
    (endLoad (s.fdm.setPos l.pos m) l fail).2
  refine Eq.trans (congrArg (State.wake (s.fdm.waitersOf l.face)) h) ?_
  rw [hd, hn]
  rfl

/-- R21, R35: a load's end. -/
structure State.LoadEnded (l : Load) (fail : Option MountCause) (m : MountPos) (s t : State) : Prop where
  load : t.fdm.load = none
  requests : t.fdm.requests = s.fdm.requests.filter (fun q => q.face != l.face)
  recency : t.fdm.recency = s.fdm.recency.filter (fun p => decide (p ≠ l.pos)) ++ [l.pos]
  lock : t.fdm.lock = s.fdm.lock
  stays : s.fdm.dir[l.face].state ≠ .withdrawing →
    t.fdm.pos = setAt s.fdm.pos l.pos (l.place fail m) ∧ t.fdm.dir = s.fdm.dir ∧ t.olu = s.olu.post (l.notice fail m)
  retires : s.fdm.dir[l.face].state = .withdrawing →
    t.fdm.pos = setAt s.fdm.pos l.pos {} ∧ t.fdm.dir = setAt s.fdm.dir l.face {} ∧
      t.olu = (s.olu.post (l.notice fail m)).post (.faceRetired l.face l.pos)
  wakes : ∀ c : Fin 4, t.ch[c] = if c ∈ s.fdm.waitersOf l.face ∧ s.ch[c].state = .mountWait then
    { s.ch[c] with state := eligibility s.ch[c].buffer } else s.ch[c]
  rest : Touches [.olu, .fdm, .ch] s t

theorem State.loadEnds_ended (l : Load) (fail : Option MountCause) (m : MountPos) (s : State) :
    State.LoadEnded l fail m s (State.loadEnds l fail { s with fdm := s.fdm.setPos l.pos m }) := by
  rw [State.loadEnds_eq]
  have hface := s.fdm.loaded_face l fail m
  have hrest : Touches [.olu, .fdm] s { s with
      fdm := ((s.fdm.loaded l fail m).retireFrom l.pos).1,
      olu := ((s.fdm.loaded l fail m).retireFrom l.pos).2.foldl (fun o n => o.post n) (s.olu.post (l.notice fail m)) } := by
    constructor <;> simp
  have hwoken (u : State) : (u.wake (s.fdm.waitersOf l.face)).fdm = u.fdm ∧ (u.wake (s.fdm.waitersOf l.face)).olu = u.olu := by
    have h := u.wake_touches (s.fdm.waitersOf l.face)
    exact ⟨h.fdm (by decide), h.olu (by decide)⟩
  have hall := hrest.comp (ds := [.olu, .fdm, .ch]) (State.wake_touches (s.fdm.waitersOf l.face) _) (by decide) (by decide)
  by_cases hw : s.fdm.dir[l.face].state = .withdrawing
  · have hr := Fdm.retireFrom_retires (d := s.fdm.loaded l fail m) hface hw
    rw [hr] at hall ⊢
    refine ⟨?_, ?_, ?_, ?_, fun h => absurd hw h, fun _ => ⟨?_, ?_, (hwoken _).2⟩, State.wake_ch _ _, hall⟩
    all_goals rw [(hwoken _).1]
    case refine_5 => exact setAt_twice _ _ _ _
    all_goals rfl
  · have hr := Fdm.retireFrom_stays (d := s.fdm.loaded l fail m) hface hw
    rw [hr] at hall ⊢
    refine ⟨?_, ?_, ?_, ?_, fun _ => ⟨?_, ?_, (hwoken _).2⟩, fun h => absurd h hw, State.wake_ch _ _, hall⟩
    all_goals
      rw [(hwoken _).1]
      rfl

/-! ### A page of a section (R33, R34) -/

/-- R33: the position of a load with a page placed in its memory. -/
def State.placed (l : Load) (r : FetchReq) (data : Bytes) (s : State) : MountPos :=
  { s.fdm.pos[l.pos] with memory := placePage r.ref data s.fdm.pos[l.pos].memory }

/-- R33: the page placed. -/
def State.placing (l : Load) (r : FetchReq) (data : Bytes) (s : State) : State :=
  { s with fdm := s.fdm.setPos l.pos (s.placed l r data) }

/-- R34: a base page that fails its tests ends the load. -/
theorem State.mountPage_fails {s : State} {l : Load} {r : FetchReq} {data : Bytes} {why : MountCause} (h : s.fdm.load = some l)
    (hl : l.length = none) (ht : headerTest data s.fdm.dir[l.face].size = some why) :
    s.mountPage r data = State.loadEnds l (some why) (s.placing l r data) := by
  unfold State.mountPage
  rw [h]
  dsimp only
  rw [hl]
  dsimp only
  rw [show headerTest data (s.fdm.setPos l.pos _).dir[l.face].size = some why from ht]
  rfl

/-- R34: a section of one page is tested at once. -/
theorem State.mountPage_single {s : State} {l : Load} {r : FetchReq} {data : Bytes} (h : s.fdm.load = some l)
    (hl : l.length = none) (ht : headerTest data s.fdm.dir[l.face].size = none) (hlen : at32 data 24 ≤ 4096) :
    s.mountPage r data =
      State.loadEnds l (bodyTest (s.placed l r data).sectionBytes s.fdm.dir[l.face].size) (s.placing l r data) := by
  unfold State.mountPage
  rw [h]
  dsimp only
  rw [hl]
  dsimp only
  rw [show headerTest data (s.fdm.setPos l.pos _).dir[l.face].size = none from ht]
  exact if_pos hlen

/-- R33: a good base page of a longer section gives its length, and the loader goes on. -/
theorem State.mountPage_base {s : State} {l : Load} {r : FetchReq} {data : Bytes} (h : s.fdm.load = some l)
    (hl : l.length = none) (ht : headerTest data s.fdm.dir[l.face].size = none) (hlen : 4096 < at32 data 24) :
    s.mountPage r data = State.pumpLoader { s with
      fdm := { s.fdm.setPos l.pos (s.placed l r data) with load := some { l with length := some (at32 data 24) } } } := by
  unfold State.mountPage
  rw [h]
  dsimp only
  rw [hl]
  dsimp only
  rw [show headerTest data (s.fdm.setPos l.pos _).dir[l.face].size = none from ht]
  exact if_neg (Nat.not_le.2 hlen)

/-- R34: the section is tested when all its pages are in. -/
theorem State.mountPage_last {s : State} {l : Load} {r : FetchReq} {data : Bytes} {len : Nat} (h : s.fdm.load = some l)
    (hl : l.length = some len) (hall : (s.placed l r data).memory.length = pagesOf len) :
    s.mountPage r data =
      State.loadEnds l (bodyTest (s.placed l r data).sectionBytes s.fdm.dir[l.face].size) (s.placing l r data) := by
  unfold State.mountPage
  rw [h]
  dsimp only
  rw [hl]
  exact if_pos hall

/-- R33: until then the loader goes on. -/
theorem State.mountPage_more {s : State} {l : Load} {r : FetchReq} {data : Bytes} {len : Nat} (h : s.fdm.load = some l)
    (hl : l.length = some len) (hnot : (s.placed l r data).memory.length ≠ pagesOf len) :
    s.mountPage r data = State.pumpLoader { s with
      fdm := { s.fdm.setPos l.pos (s.placed l r data) with load := some { l with length := some len } } } := by
  have hload : some { l with length := some len } = s.fdm.load := by rw [h, ← hl]
  rw [hload]
  unfold State.mountPage
  rw [h]
  dsimp only
  rw [hl]
  refine (if_neg hnot).trans ?_
  rw [← h]
  rfl

/-- R33: the loader goes on from a load whose length is known, its position holding m. -/
def State.LoadGoesOn (l : Load) (len : Nat) (m : MountPos) (s t : State) : Prop :=
  ∃ (n : Nat) (fetches : Fs), l.issued ≤ n ∧
    fetches = (List.range' l.issued (n - l.issued)).foldl (fun x k => x.request (sectionFetch s.fdm.dir[l.face].base len k)) s.fs ∧
    (n ≠ l.issued → n ≤ pagesOf len ∧ fetches.outstanding .mount ≤ 4) ∧
    (pagesOf len ≤ n ∨ 4 ≤ fetches.outstanding .mount ∨ fetches.holdsFor .mount = true) ∧
    t = { s with fs := fetches, fdm := { s.fdm with
      pos := setAt s.fdm.pos l.pos m, load := some { l with length := some len, issued := n } } }

theorem State.pumpLoader_goesOn (l : Load) (len : Nat) (m : MountPos) (s : State) :
    State.LoadGoesOn l len m s (State.pumpLoader { s with
      fdm := { s.fdm.setPos l.pos m with load := some { l with length := some len } } }) := by
  obtain ⟨k, hk, hmost, hleast⟩ := State.pumpLoader_pages
    { s with fdm := { s.fdm.setPos l.pos m with load := some { l with length := some len } } } (l := { l with length := some len }) rfl rfl
  refine ⟨l.issued + k, _, Nat.le_add_right _ _, rfl, fun hn => ?_, ?_, ?_⟩
  · rw [Nat.add_sub_cancel_left]
    exact hmost (fun e => hn (by rw [e, Nat.add_zero]))
  · rw [Nat.add_sub_cancel_left]
    exact hleast
  · rw [Nat.add_sub_cancel_left]
    exact hk

end Sys2Proof.Machine
end


section
/-! PROOF. ROW_OPEN_DONE and TRANSFER_COMPLETE, requester by requester (R105, R113). -/

namespace Sys2Proof.Machine

theorem Sq.sendWaiting_state (q : Sq) : q.sendWaiting.state = q.state := by
  rw [Sq.sendWaiting_eq]
  split
  · rfl
  · split <;> rfl

/-- R107: at a transfer's completion an erase that waited is sent. -/
theorem Sq.sendWaiting_erasing {q : Sq} (h : q.state = .erasing) : q.sendWaiting.eraseSent = true := by
  rw [Sq.sendWaiting_eq, if_pos h]

/-- R107: at a transfer's completion a line that waited is sent. -/
theorem Sq.sendWaiting_claimed {q : Sq} (h : q.state = .programming) (hs : q.step = .claimed) : q.sendWaiting.step = .sent := by
  rw [Sq.sendWaiting_eq, if_neg (by rw [h]; decide), if_pos ⟨h, hs⟩]

/-- What the requester of a completed transfer makes of its data. -/
def State.served (r : FetchReq) (wanted : Bool) (s : State) : State :=
  if wanted then (s.transferred r).deliver r (s.fetched r) else s.transferred r

theorem State.served_path (r : FetchReq) (wanted : Bool) (s : State) : (s.served r wanted).fs.path = .free := by
  have h : (s.transferred r).fs.path = .free := s.fs.completed_path s.time r
  unfold State.served
  split
  · exact (State.deliver_path _ _ _).trans h
  · exact h

theorem State.served_touches (r : FetchReq) (wanted : Bool) (s : State) :
    Touches [.olu, .fdm, .ch, .fs, .sq, .ex, .sa] s (s.served r wanted) := by
  have h : Touches [.fs, .sq] s (s.transferred r) := by constructor <;> simp [State.transferred]
  unfold State.served
  split
  · exact h.comp (State.deliver_touches _ _ _) (by decide) (by decide)
  · exact h.mono (by decide)

theorem State.served_sq {r : FetchReq} {wanted : Bool} (h : r.requester ≠ .sequencer ∨ wanted = false) (s : State) :
    (s.served r wanted).sq = s.sq.sendWaiting := by
  unfold State.served
  split
  · next hw => exact State.deliver_sq (h.resolve_right (by rw [hw]; decide)) _ _
  · rfl

theorem State.served_sq_erasing {s : State} (h : s.sq.state = .erasing) (r : FetchReq) (wanted : Bool) :
    (s.served r wanted).sq = s.sq.sendWaiting := by
  unfold State.served
  split
  · exact State.deliver_sq_erasing (s := s.transferred r) ((Sq.sendWaiting_state _).trans h) _ _
  · rfl

/-- Where the data makes no request, a suspended erase resumes if no fetch is left. -/
theorem State.transferred_fetchesIdle (r : FetchReq) (s : State) :
    (s.transferred r).fetchesIdle = { s with
      fs := if s.sq.state = .eraseSuspended ∧ (s.fs.completed s.time r).isIdle = true then (s.fs.completed s.time r).claimAll
        else s.fs.completed s.time r,
      sq := if s.sq.state = .eraseSuspended ∧ (s.fs.completed s.time r).isIdle = true then { s.sq with state := .erasing }
        else s.sq.sendWaiting } := by
  rw [State.fetchesIdle_eq]
  have hs : (s.transferred r).sq.state = s.sq.state := Sq.sendWaiting_state _
  have hf : (s.transferred r).fs = s.fs.completed s.time r := rfl
  rw [hs, hf]
  by_cases h : s.sq.state = .eraseSuspended ∧ (s.fs.completed s.time r).isIdle = true
  · have hq : (s.transferred r).sq = s.sq := Sq.sendWaiting_idle (by rw [h.1]; decide) (by rw [h.1]; exact fun e => nomatch e)
    rw [if_pos h, if_pos h, if_pos h, hq]
    rfl
  · rw [if_neg h, if_neg h, if_neg h]
    rfl

theorem State.post_fetchesIdle (n : Notice) (s : State) : (s.post n).fetchesIdle = s.fetchesIdle.post n := by
  rw [State.fetchesIdle_eq, State.fetchesIdle_eq]
  rfl

/-- R114, R131: a read of the link, and a request withdrawn. -/
theorem State.served_link {r : FetchReq} {wanted : Bool} (h : r.requester = .link ∨ wanted = false) (s : State) :
    (s.served r wanted).idleReport (s.transferred r).fs.isIdle =
      if wanted then State.post (.storeData (BitVec.ofNat 8 r.ref) r.page r.offset (s.fetched r)) (s.transferred r).fetchesIdle
      else (s.transferred r).fetchesIdle := by
  unfold State.served
  cases wanted with
  | false => exact State.idleReport_plain rfl
  | true =>
    have hr : (s.transferred r).deliver r (s.fetched r) =
        State.post (.storeData (BitVec.ofNat 8 r.ref) r.page r.offset (s.fetched r)) (s.transferred r) := by
      unfold State.deliver
      rw [h.resolve_right (by decide)]
    have hp : (State.post (.storeData (BitVec.ofNat 8 r.ref) r.page r.offset (s.fetched r)) (s.transferred r)).fs.isIdle =
        (s.transferred r).fs.isIdle := rfl
    exact (congrArg (State.idleReport _) hr).trans ((State.idleReport_plain hp).trans (State.post_fetchesIdle _ _))

/-- R113: the data of the sequencer's own request, where no erase and no line waited for the transfer. -/
theorem State.served_sequencer {r : FetchReq} {s : State} (hr : r.requester = .sequencer) (h1 : s.sq.state ≠ .erasing)
    (h2 : s.sq.state = .programming → s.sq.step ≠ .claimed) :
    s.served r true = State.sequencerRead (s.fetched r) { s with fs := s.fs.completed s.time r } := by
  unfold State.served State.deliver
  rw [hr, ← State.transferred_idle r h1 h2]
  rfl

theorem State.served_line {r : FetchReq} {s : State} (hr : r.requester = .sequencer) (hp : s.sq.state = .programming)
    (hstep : s.sq.step = .read) :
    s.served r true = State.lineRead (s.fetched r) { s with fs := s.fs.completed s.time r } := by
  rw [State.served_sequencer hr (by rw [hp]; decide) (fun _ => by rw [hstep]; decide)]
  unfold State.sequencerRead
  dsimp only
  rw [hp]

theorem State.served_page {r : FetchReq} {s : State} (hr : r.requester = .sequencer) (hp : s.sq.state = .checking) :
    s.served r true = State.pageRead (s.fetched r) { s with fs := s.fs.completed s.time r } := by
  rw [State.served_sequencer hr (by rw [hp]; decide) (fun h => by rw [hp] at h; cases h)]
  unfold State.sequencerRead
  dsimp only
  rw [hp]

theorem State.served_strike {r : FetchReq} (hr : r.requester = .strike) (s : State) :
    s.served r true = (s.transferred r).masterArrived r (s.fetched r) := by
  unfold State.served State.deliver
  rw [hr]
  rfl

theorem State.served_mount {r : FetchReq} (hr : r.requester = .mount) (s : State) :
    s.served r true = (s.transferred r).mountPage r (s.fetched r) := by
  unfold State.served State.deliver
  rw [hr]
  rfl

theorem ErrorKinds.add_ne_empty (k : ErrorKinds) (e : TargetError) : k.add e ≠ {} := by
  obtain ⟨a, b, c, d⟩ := k
  cases e <;> simp [ErrorKinds.add]

/-- Settles O23. -/
theorem transferDeliversTheBytes : Obligations.TransferDeliversTheBytes := by
  intro s r wanted
  refine ⟨fun hp => ?_, fun hp hpage hlen => ?_⟩
  · show execRowOpenDone s = _
    unfold execRowOpenDone
    rw [hp]
  intro data b f q' finishes
  have hexec : exec .transferComplete s = .next ((s.served r wanted).idleReport f.isIdle).settle :=
    execTransferComplete_delivers hp hpage hlen
  have ht : s.transferred r = { s with fs := f, sq := q' } := by
    rw [State.transferred, Sq.sendWaiting_eq]
    rfl
  have fin {v : State} (h : s.served r wanted = v) : finishes v := by
    refine ⟨v.idleReport f.isIdle, ?_, State.idleReport_resumes _ v⟩
    rw [hexec, h]
  have still {v : State} (h : s.served r wanted = v) (hv : v.sq.state ≠ .eraseSuspended) :
      exec .transferComplete s = .next v.settle := by
    rw [hexec, h, State.idleReport_none hv]
  have hi := State.idleReport_touches f.isIdle (s.served r wanted)
  refine ⟨⟨_, hexec, ?_, ?_, ?_, fun he => ?_, fun hpr hst hr => ?_⟩, fun hr => ?_, fun l rest hr hw hpr hst hbuf => ?_,
    fun k hr hw hck hk => ?_, fun w i again q hr hw ha hb hq => ?_, fun l hr hw hl => ?_⟩
  · rw [State.settle_fs, State.idleReport_path]
    exact s.served_path r wanted
  · rw [State.settle_store, hi.store (by decide)]
    exact (s.served_touches r wanted).store (by decide)
  · rw [State.settle_time, hi.time (by decide)]
    exact (s.served_touches r wanted).time (by decide)
  · have hsq := State.served_sq_erasing he r wanted
    rw [State.settle_sq, State.idleReport_none (by rw [hsq, Sq.sendWaiting_state, he]; decide), hsq]
    exact Sq.sendWaiting_erasing he
  · have hsq := State.served_sq hr s
    rw [State.settle_sq, State.idleReport_none (by rw [hsq, Sq.sendWaiting_state, hpr]; decide), hsq]
    exact Sq.sendWaiting_claimed hpr hst
  · intro resumes u
    have hu : (s.transferred r).fetchesIdle = u := by
      rw [State.transferred_fetchesIdle, Sq.sendWaiting_eq]
      rfl
    rw [hexec, ← hu]
    exact congrArg (fun v => Host.Outcome.next (State.settle v)) (State.served_link hr s)
  · subst hw
    have hline := State.served_line hr hpr hst
    have fails {k : ErrorKinds} (hk : k ≠ {}) := State.failLine_eq (s := { s with fs := s.fs.completed s.time r }) hk hst hbuf
    have locked : SqState.locked ≠ .eraseSuspended := by decide
    refine ⟨fun hd => ?_, fun hd hwin => ?_, fun hd hwin hin => ?_, fun hd hwin hin => ?_⟩
    · exact still (hline.trans ((State.lineRead_notBlank (s := { s with fs := s.fs.completed s.time r }) hbuf hd).trans
        (fails (by simp)))) locked
    all_goals have hbl := State.lineRead_blank (s := { s with fs := s.fs.completed s.time r }) hbuf hd
    · rw [targetTest_protect (q := s.sq) hwin] at hbl
      exact still (hline.trans (hbl.trans (fails (ErrorKinds.add_ne_empty _ _)))) locked
    · rw [targetTest_inUse (q := s.sq) hwin hin] at hbl
      exact still (hline.trans (hbl.trans (fails (ErrorKinds.add_ne_empty _ _)))) locked
    · rw [targetTest_none (q := s.sq) hwin hin] at hbl
      refine still (hline.trans (hbl.trans (State.claimLine_free (s.fs.completed_path s.time r) l))) ?_
      show s.sq.state ≠ _
      rw [hpr]
      decide
  · subst hw
    have hread := State.served_page hr hck
    have hblank (hd : ∀ b ∈ data, b = 255) :=
      State.pageRead_blank (s := { s with fs := s.fs.completed s.time r }) hk (k.scan_blank hd)
    have idle : SqState.idle ≠ .eraseSuspended := by decide
    refine ⟨fun before v after hd hv hrest => ?_, fun hd hn => ?_, fun hd hn => ?_⟩
    · refine still (hread.trans (State.pageRead_found (s := { s with fs := s.fs.completed s.time r }) hk ?_)) idle
      rw [show s.fetched r = before ++ v :: after from hd]
      exact k.scan_finds hv hrest
    · exact still (hread.trans ((hblank hd).trans (if_pos hn))) idle
    · refine still (hread.trans ((hblank hd).trans (if_neg hn))) ?_
      show s.sq.state ≠ _
      rw [hck]
      decide
  · subst hw
    have hstrike := State.served_strike hr s
    rw [ht] at hstrike
    intro b missing damaged
    refine ⟨fun hm => ?_, fun hm hc => ?_, fun hm hag hext hmiss howed hfp hheld => ?_⟩
    · exact ⟨_, fin (hstrike.trans (State.masterArrived_passes ha hb hm)), State.send_sendsNext _⟩
    · have hfail := State.masterArrived_fails (s := { s with fs := f, sq := q' }) (data := s.fetched r) ha hb hm hq
      rw [if_pos (by rw [Bool.or_eq_true, Bool.or_eq_true, beq_iff_eq, or_assoc]; exact hc)] at hfail
      exact ⟨_, fin (hstrike.trans hfail), State.send_sendsNext _⟩
    · have hfail := State.masterArrived_fails (s := { s with fs := f, sq := q' }) (data := s.fetched r) ha hb hm hq
      rw [if_neg (by rw [Bool.or_eq_true, Bool.or_eq_true, beq_iff_eq, hag, hext]; exact fun h => h.elim (fun h => h.elim nofun nofun) hmiss),
        howed] at hfail
      have hh : f.holdsFor .strike = false := (congrArg (fun h => List.any h _) (s.fs.completed_held s.time r)).trans hheld
      have hrep := State.pumpSa_replaces
        (s := { State.damaged { s with fs := f, sq := q' } with sa := { s.sa with
          buffers := setAt s.sa.buffers b (.fetching i true), assembly := some { w with owed := [b] } } })
        rfl howed hfp hh (setAt_same s.sa.buffers b _) hq
      rw [← ha] at hrep
      exact fin (hstrike.trans (hfail.trans hrep))
  · subst hw
    have hmount := State.served_mount hr s
    rw [ht] at hmount
    intro size m goesOn ends
    have loads {fail : Option MountCause}
        (h : State.mountPage r (s.fetched r) { s with fs := f, sq := q' } =
          State.loadEnds l fail (State.placing l r (s.fetched r) { s with fs := f, sq := q' })) : ends fail := by
      have he := State.loadEnds_ended l fail m { s with fs := f, sq := q' }
      exact ⟨_, fin (hmount.trans h), he.rest.fs (by decide), he.rest.sq (by decide), he.load, he.requests, he.recency, he.lock,
        he.stays, he.retires, he.wakes, he.rest.ce (by decide), he.rest.ex (by decide), he.rest.sa (by decide),
        he.rest.store (by decide), he.rest.time (by decide)⟩
    have pumps {len : Nat} (h : State.LoadGoesOn l len m { s with fs := f, sq := q' } (s.served r true)) : goesOn len := by
      obtain ⟨n, fetches, hn, hf, hmost, hleast, hv⟩ := h
      exact ⟨n, fetches, hn, hf, hmost, hleast, fin hv⟩
    refine ⟨fun hnone why hh => ?_, fun hnone hh => ⟨fun hle => ?_, fun hgt => ?_⟩, fun len hlen => ⟨fun hall => ?_, fun hnot => ?_⟩⟩
    · exact loads (State.mountPage_fails hl hnone hh)
    · exact loads (State.mountPage_single hl hnone hh hle)
    · exact pumps ((hmount.trans (State.mountPage_base hl hnone hh hgt)) ▸ State.pumpLoader_goesOn l _ m _)
    · exact loads (State.mountPage_last hl hlen hall)
    · exact pumps ((hmount.trans (State.mountPage_more hl hlen hnot)) ▸ State.pumpLoader_goesOn l len m _)

end Sys2Proof.Machine
end


section
/-! PROOF. The orders of the store sequencer: STORE_WRITE, STORE_ERASE, STORE_BLANK, STORE_READ, STORE_MODE and STORE_WINDOW (R120,
R122, R124, R126, R129 to R131, R134). -/

namespace Sys2Proof.Machine

/-! ### The target tests (R120) -/

/-- R120: a line's page and offset are in range. -/
def lineInRange (page offset : Nat) : Prop := page < 4096 ∧ offset < 4096 ∧ offset % 256 = 0

theorem writeTest_range {q : Sq} {d : Fdm} {page offset : Nat} (h : ¬ lineInRange page offset) :
    writeTest q d page offset = some .range := if_pos (by unfold lineInRange at h; omega)

theorem writeTest_inRange {q : Sq} {d : Fdm} {page offset : Nat} (h : lineInRange page offset) :
    writeTest q d page offset = targetTest q d (page / 64) page 1 := if_neg (by unfold lineInRange at h; omega)

theorem targetTest_none_iff {q : Sq} {d : Fdm} {block base n : Nat} :
    targetTest q d block base n = none ↔ q.windowed block = false ∧ d.protects base n = false :=
  ⟨targetTest_passes, fun ⟨h1, h2⟩ => targetTest_none h1 h2⟩

theorem writeTest_none_iff {q : Sq} {d : Fdm} {page offset : Nat} :
    writeTest q d page offset = none ↔ lineInRange page offset ∧ q.windowed (page / 64) = false ∧ d.protects page 1 = false := by
  by_cases h : lineInRange page offset
  · rw [writeTest_inRange h, targetTest_none_iff]
    exact (and_iff_right h).symm
  · rw [writeTest_range h]
    exact ⟨nofun, fun k => absurd k.1 h⟩

theorem eraseTest_range {q : Sq} {d : Fdm} {block : Nat} (h : 64 ≤ block) : eraseTest q d block = some .range := if_pos h

theorem eraseTest_inRange {q : Sq} {d : Fdm} {block : Nat} (h : block < 64) :
    eraseTest q d block = targetTest q d block (64 * block) 64 := if_neg (Nat.not_le.2 h)

/-! ### STORE_WRITE (R122, R124) -/

theorem actStoreWrite_locked {s : State} (h : s.sq.state = .locked) (page offset : Word) (data : Bytes) :
    actStoreWrite page offset data s = (s, .refuse .storeLocked 0) := by
  unfold actStoreWrite
  dsimp only
  rw [h]
  rfl

theorem actStoreWrite_busy {s : State} (h : s.sq.state = .erasing ∨ s.sq.state = .eraseSuspended ∨ s.sq.state = .checking)
    (page offset : Word) (data : Bytes) : actStoreWrite page offset data s = (s, .refuse .busy 0) := by
  unfold actStoreWrite
  dsimp only
  obtain h | h | h := h <;> rw [h] <;> rfl

/-- R121, R122: in IDLE a failing test locks. -/
theorem actStoreWrite_locks {s : State} (h : s.sq.state = .idle) {page offset : Word} {e : TargetError}
    (he : writeTest s.sq s.fdm page.toNat offset.toNat = some e) (data : Bytes) :
    actStoreWrite page offset data s = (s.lockFor e, .refuse e.reason 0) := by
  unfold actStoreWrite
  dsimp only
  rw [h]
  dsimp only
  rw [he]
  rfl

/-- R122, R123: in IDLE a line that passes opens a session, and its pre-program read is requested. -/
theorem actStoreWrite_opens {s : State} (h : s.sq.state = .idle) {page offset : Word}
    (ht : writeTest s.sq s.fdm page.toNat offset.toNat = none) (data : Bytes) :
    actStoreWrite page offset data s = ({ s with
      sq := { s.sq with
        state := .programming, buffer := [⟨page.toNat, offset.toNat, data⟩], step := .read, programmed := 0, discarded := 0,
        failed := none, latest := some 0x30, previous := s.sq.latest },
      fs := s.fs.request { requester := .sequencer, page := page.toNat, offset := offset.toNat, length := 256 } }, .accept [1]) := by
  unfold actStoreWrite
  dsimp only
  rw [h]
  dsimp only
  rw [ht]
  rfl

theorem actStoreWrite_pending {s : State} (h : s.sq.state = .programming) (hp : s.sq.lockPending = true) (page offset : Word)
    (data : Bytes) : actStoreWrite page offset data s = (s, .refuse .storeLocked 0) := by
  unfold actStoreWrite
  dsimp only
  rw [h]
  exact if_pos hp

/-- R124: during a session a failing test sets lock pending and discards the line behind. -/
theorem actStoreWrite_pends {s : State} (h : s.sq.state = .programming) (hp : s.sq.lockPending = false) {page offset : Word}
    {e : TargetError} (he : writeTest s.sq s.fdm page.toNat offset.toNat = some e) (data : Bytes) :
    actStoreWrite page offset data s = ({ s with sq := { s.sq with
      kinds := s.sq.kinds.add e, lockPending := true, buffer := s.sq.buffer.take 1,
      discarded := min 65535 (s.sq.discarded + (s.sq.buffer.length - 1)) } }, .refuse e.reason 0) := by
  unfold actStoreWrite
  dsimp only
  rw [h]
  dsimp only
  rw [if_neg (by simp [hp]), he]
  rfl

theorem actStoreWrite_full {s : State} (h : s.sq.state = .programming) (hp : s.sq.lockPending = false) {page offset : Word}
    (ht : writeTest s.sq s.fdm page.toNat offset.toNat = none) (hfull : 2 ≤ s.sq.buffer.length) (data : Bytes) :
    actStoreWrite page offset data s = (s, .refuse .full 0) := by
  unfold actStoreWrite
  dsimp only
  rw [h]
  dsimp only
  rw [if_neg (by simp [hp]), ht]
  exact if_pos hfull

/-- R124: during a session a line that passes joins the buffer. -/
theorem actStoreWrite_joins {s : State} (h : s.sq.state = .programming) (hp : s.sq.lockPending = false) {page offset : Word}
    (ht : writeTest s.sq s.fdm page.toNat offset.toNat = none) {first : ProgLine} (hb : s.sq.buffer = [first]) (data : Bytes) :
    actStoreWrite page offset data s = ({ s with sq := { s.sq with
      buffer := [first, ⟨page.toNat, offset.toNat, data⟩], latest := some 0x30, previous := s.sq.latest } }, .accept [2]) := by
  unfold actStoreWrite Sq.record
  dsimp only
  rw [h]
  dsimp only
  rw [if_neg (by simp [hp]), ht]
  dsimp only
  rw [hb]
  exact if_neg (show ¬ 2 ≤ 1 by decide)

/-- Settles O25. -/
theorem storeWriteByState : Obligations.StoreWriteByState := by
  intro s tag page offset data hs hlen
  have hform : (Order.storeWrite page offset data).formOk = true := beq_iff_eq.2 hlen
  have answers {t : State} {r : Reply} (h : actStoreWrite page offset data (s.inHand ⟨0x30, tag, 0⟩) = (t.inHand ⟨0x30, tag, 0⟩, r)) :
      exec (.storeWrite tag 0 page offset data) s = .next (t.answered 0x30 tag 0 r) :=
    exec_order_answers (.storeWrite page offset data) rfl hs hform rfl h
  intro c line inRange passes refused locked
  have test : writeTest s.sq s.fdm page.toNat offset.toNat = none ↔ passes := writeTest_none_iff
  refine ⟨fun h => answers (actStoreWrite_locked (s := s.inHand ⟨0x30, tag, 0⟩) h page offset data),
    fun h => answers (actStoreWrite_busy (s := s.inHand ⟨0x30, tag, 0⟩) h page offset data),
    fun h => ⟨fun hp => ?_, fun hr => ?_, fun hr hw => ?_, fun hr hw hi => ?_⟩,
    fun h => ⟨fun hl => ?_, fun hl hp first hb => ?_, fun hl hp hb => ?_, fun hl hp => ?_⟩⟩
  · exact answers (actStoreWrite_opens (s := s.inHand ⟨0x30, tag, 0⟩) h (test.2 hp) data)
  · exact answers (actStoreWrite_locks (s := s.inHand ⟨0x30, tag, 0⟩) h (writeTest_range hr) data)
  · exact answers (actStoreWrite_locks (s := s.inHand ⟨0x30, tag, 0⟩) h ((writeTest_inRange hr).trans (targetTest_protect hw)) data)
  · exact answers (actStoreWrite_locks (s := s.inHand ⟨0x30, tag, 0⟩) h ((writeTest_inRange hr).trans (targetTest_inUse hw hi)) data)
  · exact answers (actStoreWrite_pending (s := s.inHand ⟨0x30, tag, 0⟩) h hl page offset data)
  · exact answers (actStoreWrite_joins (s := s.inHand ⟨0x30, tag, 0⟩) h hl (test.2 hp) hb data)
  · exact answers (actStoreWrite_full (s := s.inHand ⟨0x30, tag, 0⟩) h hl (test.2 hp) hb data)
  · obtain ⟨e, he⟩ := Option.ne_none_iff_exists'.1 (fun k => hp (test.1 k))
    exact ⟨e, he, answers (actStoreWrite_pends (s := s.inHand ⟨0x30, tag, 0⟩) h hl he data)⟩

/-! ### STORE_ERASE (R126) -/

theorem actStoreErase_locked {s : State} (h : s.sq.state = .locked) (block : Byte) :
    actStoreErase block s = (s, .refuse .storeLocked 0) := by
  unfold actStoreErase
  rw [h]
  rfl

theorem actStoreErase_busy {s : State} (h1 : s.sq.state ≠ .locked) (h2 : s.sq.state ≠ .idle) (block : Byte) :
    actStoreErase block s = (s, .refuse .busy 0) := by
  unfold actStoreErase
  split
  · next h => exact absurd h h1
  · next h => exact absurd h h2
  · rfl

theorem actStoreErase_locks {s : State} (h : s.sq.state = .idle) {block : Byte} {e : TargetError}
    (he : eraseTest s.sq s.fdm block.toNat = some e) : actStoreErase block s = (s.lockFor e, .refuse e.reason 0) := by
  unfold actStoreErase
  rw [h]
  dsimp only
  rw [he]
  rfl

/-- R126: in IDLE a block that passes begins an erase. -/
theorem actStoreErase_begins {s : State} (h : s.sq.state = .idle) {block : Byte} (ht : eraseTest s.sq s.fdm block.toNat = none) :
    actStoreErase block s = ({ s with
      sq := { s.sq with
        state := .erasing, eraseBlock := some block.toNat, suspendCount := 0, eraseLimit := s.sq.limit, suspendAwaited := false,
        eraseSent := s.fs.path == .free, latest := some 0x31, previous := s.sq.latest },
      fs := { s.fs with banks := Vector.replicate 8 .busy } }, .accept []) := by
  unfold actStoreErase
  rw [h]
  dsimp only
  rw [ht]
  rfl

/-- Settles O27. -/
theorem storeEraseByState : Obligations.StoreEraseByState := by
  intro s tag block hs
  have answers {t : State} {r : Reply} (h : actStoreErase block (s.inHand ⟨0x31, tag, 0⟩) = (t.inHand ⟨0x31, tag, 0⟩, r)) :
      exec (.storeErase tag 0 block) s = .next (t.answered 0x31 tag 0 r) :=
    exec_order_answers (.storeErase block) rfl hs rfl rfl h
  intro c b locked
  refine ⟨fun h => answers (actStoreErase_locked (s := s.inHand ⟨0x31, tag, 0⟩) h block),
    fun h1 h2 => answers (actStoreErase_busy (s := s.inHand ⟨0x31, tag, 0⟩) h1 h2 block),
    fun h => ⟨fun hb => ?_, fun hb hw => ?_, fun hb hw hi => ?_, fun hb hw hi => ?_⟩⟩
  · exact answers (actStoreErase_locks (s := s.inHand ⟨0x31, tag, 0⟩) h (eraseTest_range hb))
  · exact answers (actStoreErase_locks (s := s.inHand ⟨0x31, tag, 0⟩) h ((eraseTest_inRange hb).trans (targetTest_protect hw)))
  · exact answers (actStoreErase_locks (s := s.inHand ⟨0x31, tag, 0⟩) h ((eraseTest_inRange hb).trans (targetTest_inUse hw hi)))
  · have hsent : decide (s.fs.path = .free) = (s.fs.path == .free) := by rw [Bool.eq_iff_iff, decide_eq_true_iff, beq_iff_eq]
    rw [hsent]
    exact answers (actStoreErase_begins (s := s.inHand ⟨0x31, tag, 0⟩) h ((eraseTest_inRange hb).trans (targetTest_none hw hi)))

/-! ### STORE_BLANK (R130) -/

theorem actStoreBlank_locked {s : State} (h : s.sq.state = .locked) (first last : Word) (direction : Byte) :
    actStoreBlank first last direction s = (s, .refuse .storeLocked 0) := by
  unfold actStoreBlank
  rw [h]
  rfl

theorem actStoreBlank_busy {s : State} (h1 : s.sq.state ≠ .locked) (h2 : s.sq.state ≠ .idle) (first last : Word) (direction : Byte) :
    actStoreBlank first last direction s = (s, .refuse .busy 0) := by
  unfold actStoreBlank
  split
  · next h => exact absurd h h1
  · next h => exact absurd h h2
  · rfl

theorem actStoreBlank_range {s : State} (h : s.sq.state = .idle) {first last : Word}
    (hr : ¬ (first.toNat ≤ last.toNat ∧ last.toNat < 4096)) (direction : Byte) :
    actStoreBlank first last direction s = (s.lockFor .range, .refuse .range 0) := by
  unfold actStoreBlank
  rw [h]
  exact if_pos (by omega)

/-- R130: a range in order begins a check. -/
theorem actStoreBlank_begins {s : State} (h : s.sq.state = .idle) {first last : Word}
    (hr : first.toNat ≤ last.toNat ∧ last.toNat < 4096) (down : Bool) :
    actStoreBlank first last (if down then 1 else 0) s = ({ s with
      sq := { s.sq with
        state := .checking, check := some ⟨first.toNat, last.toNat, down, if down then last.toNat else first.toNat⟩,
        latest := some 0x32, previous := s.sq.latest },
      fs := s.fs.request { requester := .sequencer, page := if down then last.toNat else first.toNat, offset := 0, length := 4096 } },
      .accept []) := by
  unfold actStoreBlank
  rw [h]
  refine (if_neg (by omega)).trans ?_
  cases down <;> rfl

/-! ### STORE_READ (R131) -/

theorem actStoreRead_locked {s : State} (h : s.sq.state = .locked) (tag : Byte) (page offset length : Word) :
    actStoreRead tag page offset length s = (s, .refuse .storeLocked 0) := if_pos h

/-- R131: the bytes of a read lie in one page, and are 1 to 256. -/
def readInPage (page offset length : Word) : Prop :=
  page.toNat < 4096 ∧ offset.toNat < 4096 ∧ offset.toNat + length.toNat ≤ 4096 ∧ 1 ≤ length.toNat ∧ length.toNat ≤ 256

theorem actStoreRead_range {s : State} (h : s.sq.state ≠ .locked) {page offset length : Word} (hr : ¬ readInPage page offset length)
    (tag : Byte) : actStoreRead tag page offset length s = (s, .refuse .range 0) :=
  (if_neg h).trans (if_pos (by unfold readInPage at hr; omega))

/-- R131: the request of a read. -/
def linkFetch (tag : Byte) (page offset length : Word) : FetchReq :=
  { requester := .link, page := page.toNat, offset := offset.toNat, length := length.toNat, ref := tag.toNat }

theorem Fs.request_queued {f : Fs} (h1 : f.queue.length < 32) (h2 : f.held = []) (r : FetchReq) :
    f.request r = { f with queue := f.queue ++ [{ r with bypass := 0 }] } := if_pos ⟨h1, h2⟩

theorem Fs.request_held {f : Fs} (h : 32 ≤ f.queue.length ∨ f.held ≠ []) (r : FetchReq) :
    f.request r = { f with held := f.held ++ [{ r with bypass := 0 }] } :=
  if_neg fun k => h.elim (fun hq => absurd k.1 (Nat.not_lt.2 hq)) (fun hh => hh k.2)

theorem Fs.holdsFor_appended (f : Fs) (r : FetchReq) : Fs.holdsFor { f with held := f.held ++ [r] } r.requester = true := by
  simp [Fs.holdsFor]

/-- R131: a read is answered at once when its request enters the queue. -/
theorem actStoreRead_queued {s : State} (h : s.sq.state ≠ .locked) {page offset length : Word} (hr : readInPage page offset length)
    (hq : s.fs.queue.length < 32) (hh : s.fs.held = []) (tag : Byte) :
    actStoreRead tag page offset length s =
      ({ s with fs := { s.fs with queue := s.fs.queue ++ [linkFetch tag page offset length] } }, .accept []) := by
  refine (if_neg h).trans ((if_neg (by unfold readInPage at hr; omega)).trans ?_)
  rw [Fs.request_queued hq hh]
  refine congrArg (Prod.mk _) (if_neg ?_)
  simp [Fs.holdsFor, hh]

/-- R109, R131: a read whose request is held is answered later. -/
theorem actStoreRead_held {s : State} (h : s.sq.state ≠ .locked) {page offset length : Word} (hr : readInPage page offset length)
    (hf : 32 ≤ s.fs.queue.length ∨ s.fs.held ≠ []) (tag : Byte) :
    actStoreRead tag page offset length s =
      ({ s with fs := { s.fs with held := s.fs.held ++ [linkFetch tag page offset length] } }, .later) := by
  refine (if_neg h).trans ((if_neg (by unfold readInPage at hr; omega)).trans ?_)
  rw [Fs.request_held hf]
  exact congrArg (Prod.mk _) (if_pos (s.fs.holdsFor_appended (linkFetch tag page offset length)))

/-- Settles O29. -/
theorem blankChecksAndReads : Obligations.BlankChecksAndReads := by
  intro s tag hs
  have blanks {first last : Word} {down : Bool} {t : State} {r : Reply}
      (h : actStoreBlank first last (if down then 1 else 0) (s.inHand ⟨0x32, tag, 0⟩) = (t.inHand ⟨0x32, tag, 0⟩, r)) :
      exec (.storeBlank tag 0 first last (if down then 1 else 0)) s = .next (t.answered 0x32 tag 0 r) :=
    exec_order_answers (.storeBlank first last (if down then 1 else 0)) rfl hs (by cases down <;> rfl) rfl h
  have reads {page offset length : Word} {t : State} {r : Reply}
      (h : actStoreRead tag page offset length (s.inHand ⟨0x33, tag, 0⟩) = (t.inHand ⟨0x33, tag, 0⟩, r)) :
      exec (.storeRead tag 0 page offset length) s = .next (t.answered 0x33 tag 0 r) :=
    exec_order_answers (.storeRead page offset length) rfl hs rfl rfl h
  refine ⟨fun first last down h => ⟨fun hr => ?_, fun hr => ?_⟩, fun first last down => ⟨fun h => ?_, fun h1 h2 => ?_⟩,
    fun page offset length h => ?_, fun page offset length h => ⟨fun hr hq hh => ?_, fun hr hf => ?_, fun hr => ?_⟩⟩
  · exact blanks (actStoreBlank_begins (s := s.inHand ⟨0x32, tag, 0⟩) h hr down)
  · exact blanks (actStoreBlank_range (s := s.inHand ⟨0x32, tag, 0⟩) h hr _)
  · exact blanks (actStoreBlank_locked (s := s.inHand ⟨0x32, tag, 0⟩) h first last _)
  · exact blanks (actStoreBlank_busy (s := s.inHand ⟨0x32, tag, 0⟩) h1 h2 first last _)
  · exact reads (actStoreRead_locked (s := s.inHand ⟨0x33, tag, 0⟩) h tag page offset length)
  · exact reads (actStoreRead_queued (s := s.inHand ⟨0x33, tag, 0⟩) h hr hq hh tag)
  · have hact := actStoreRead_held (s := s.inHand ⟨0x33, tag, 0⟩) h hr hf tag
    refine (exec_order_acts (o := .storeRead page offset length) rfl hs rfl rfl).trans ?_
    exact congrArg (fun u : State × Reply => Host.Outcome.next (State.answer u.2 u.1).settle) hact
  · exact reads (actStoreRead_range (s := s.inHand ⟨0x33, tag, 0⟩) h hr tag)

/-! ### STORE_MODE and STORE_WINDOW (R129, R134) -/

theorem actStoreMode_sets {s : State} (h : s.sq.state = .idle ∨ s.sq.state = .locked) (mode limit : Byte) :
    actStoreMode mode limit s = ({ s with sq := { s.sq with
        mode := if mode = 0 then .fetchFirst else .eraseFirst, limit := min 15 limit.toNat, latest := some 0x34, previous := s.sq.latest } },
      .accept (yesNo (decide (15 < limit.toNat)) ++ u8 (if mode = 0 then SuspendMode.fetchFirst else .eraseFirst).code ++
        u8 (min 15 limit.toNat))) := by
  unfold actStoreMode
  rw [if_pos h, clampNat_zero]
  rfl

theorem actStoreMode_busy {s : State} (h1 : s.sq.state ≠ .idle) (h2 : s.sq.state ≠ .locked) (mode limit : Byte) :
    actStoreMode mode limit s = (s, .refuse .busy 0) := if_neg (not_or.2 ⟨h1, h2⟩)

theorem actStoreWindow_none {s : State} (h : s.fdm.lock = false) :
    actStoreWindow 255 255 s =
      ({ s with sq := { s.sq with window := none, latest := some 0x37, previous := s.sq.latest } }, .accept []) := by
  unfold actStoreWindow
  rw [if_neg (by simp [h]), if_pos ⟨rfl, rfl⟩]
  rfl

theorem actStoreWindow_range {s : State} (h : s.fdm.lock = false) {first last : Byte} (h1 : ¬ (first = 255 ∧ last = 255))
    (h2 : ¬ (first.toNat ≤ last.toNat ∧ last.toNat < 64)) : actStoreWindow first last s = (s, .refuse .range 0) := by
  unfold actStoreWindow
  rw [if_neg (by simp [h]), if_neg h1]
  exact if_pos (by omega)

theorem actStoreWindow_sets {s : State} (h : s.fdm.lock = false) {first last : Byte} (hr : first.toNat ≤ last.toNat ∧ last.toNat < 64) :
    actStoreWindow first last s = ({ s with sq := { s.sq with
      window := some (first.toNat, last.toNat), latest := some 0x37, previous := s.sq.latest } }, .accept []) := by
  have hnone : ¬ (first = 255 ∧ last = 255) := fun k => absurd hr.2 (by rw [k.2]; decide)
  unfold actStoreWindow
  rw [if_neg (by simp [h]), if_neg hnone]
  exact if_neg (by omega)

/-- Settles O30. -/
theorem storeModeAndWindowSetTheirValues : Obligations.StoreModeAndWindowSetTheirValues := by
  intro s tag hs
  refine ⟨fun mode limit hm => ?_, fun first last hl => ?_⟩
  · have hform : (Order.storeMode mode limit).formOk = true := decide_eq_true hm
    refine ⟨fun h => ?_, fun h1 h2 => ?_⟩
    · exact exec_order_answers (.storeMode mode limit) rfl hs hform rfl (actStoreMode_sets (s := s.inHand ⟨0x34, tag, 0⟩) h mode limit)
    · exact exec_order_answers (.storeMode mode limit) rfl hs hform rfl
        (actStoreMode_busy (s := s.inHand ⟨0x34, tag, 0⟩) h1 h2 mode limit)
  · have answers {t : State} {r : Reply} (h : actStoreWindow first last (s.inHand ⟨0x37, tag, 0⟩) = (t.inHand ⟨0x37, tag, 0⟩, r)) :
        exec (.storeWindow tag 0 first last) s = .next (t.answered 0x37 tag 0 r) :=
      exec_order_answers (.storeWindow first last) rfl hs rfl rfl h
    refine ⟨?_, fun hr => ?_, fun h1 h2 => ?_⟩
    · rintro ⟨rfl, rfl⟩
      exact answers (actStoreWindow_none (s := s.inHand ⟨0x37, tag, 0⟩) hl)
    · exact answers (actStoreWindow_sets (s := s.inHand ⟨0x37, tag, 0⟩) hl hr)
    · exact answers (actStoreWindow_range (s := s.inHand ⟨0x37, tag, 0⟩) hl h1 h2)

end Sys2Proof.Machine
end


section
/-! PROOF. The store's reports to the sequencer and STORE_ABORT (R123, R126 to R128, R132). -/

namespace Sys2Proof.Machine

/-! ### Banks released (R107) -/

theorem Fs.releasedBank_ne_busy (f : Fs) (b : Fin 8) : f.releasedBank b ≠ .busy := by
  unfold Fs.releasedBank
  split
  · split <;> exact nofun
  · exact nofun

/-- R107: a release changes the banks alone, leaves its bank not BUSY and makes no bank BUSY. -/
theorem Fs.releaseBank_frees (f : Fs) (b : Fin 8) :
    f.releaseBank b = { f with banks := (f.releaseBank b).banks } ∧ (f.releaseBank b).banks[b] ≠ .busy ∧
      ∀ n : Fin 8, f.banks[n] ≠ .busy → (f.releaseBank b).banks[n] ≠ .busy := by
  unfold Fs.releaseBank
  split
  · refine ⟨rfl, ?_, fun n hn => ?_⟩
    · exact (setAt_same f.banks b _).symm ▸ f.releasedBank_ne_busy b
    · have hget : (f.setBank b (f.releasedBank b)).banks[n] = if n = b then f.releasedBank b else f.banks[n] := setAt_get _ _ _ _
      rw [hget]
      split
      · exact f.releasedBank_ne_busy b
      · exact hn
  · next h => exact ⟨rfl, h, fun _ hn => hn⟩

theorem Fs.releaseBanks_frees (bs : List (Fin 8)) (f : Fs) :
    bs.foldl Fs.releaseBank f = { f with banks := (bs.foldl Fs.releaseBank f).banks } ∧
      ∀ n : Fin 8, n ∈ bs ∨ f.banks[n] ≠ .busy → (bs.foldl Fs.releaseBank f).banks[n] ≠ .busy := by
  induction bs generalizing f with
  | nil => exact ⟨rfl, fun n hn => hn.resolve_left List.not_mem_nil⟩
  | cons b bs ih =>
    obtain ⟨hf, hb, hkeep⟩ := f.releaseBank_frees b
    obtain ⟨hg, hfree⟩ := ih (f.releaseBank b)
    refine ⟨?_, fun n hn => hfree n ?_⟩
    · exact hg.trans (congrArg (fun g : Fs => { g with banks := (bs.foldl Fs.releaseBank (f.releaseBank b)).banks }) hf)
    · obtain hn | hn := hn
      · obtain rfl | hn := List.mem_cons.1 hn
        · exact .inr hb
        · exact .inl hn
      · exact .inr (hkeep n hn)

theorem mem_eights (n : Fin 8) : n ∈ eights := by
  revert n
  decide

/-- R107: with all banks released none is BUSY, and nothing else of the scheduler has changed. -/
theorem Fs.releaseAll_frees (f : Fs) : ∃ v, f.releaseAll = { f with banks := v } ∧ ∀ n : Fin 8, v[n] ≠ .busy :=
  ⟨_, (Fs.releaseBanks_frees eights f).1, fun n => (Fs.releaseBanks_frees eights f).2 n (.inl (mem_eights n))⟩

theorem Fs.releaseAll_banks (f : Fs) (n : Fin 8) : f.releaseAll.banks[n] ≠ .busy := by
  obtain ⟨v, hv, hn⟩ := f.releaseAll_frees
  rw [hv]
  exact hn n

theorem Fs.request_places (f : Fs) (r : FetchReq) :
    (f.request r).banks = f.banks ∧ (f.request r).queue ++ (f.request r).held = f.queue ++ f.held ++ [{ r with bypass := 0 }] := by
  unfold Fs.request
  split
  · next h => simp [h.2]
  · simp

/-! ### PROGRAM_LINE_DONE (R123) -/

theorem execProgramLineDone_ends {s : State} {l : ProgLine} (h : s.sq.state = .programming) (hstep : s.sq.step = .sent)
    (hb : s.sq.buffer = [l]) : execProgramLineDone s = .next (s.lineWritten l []).endSession.settle := by
  unfold execProgramLineDone
  rw [h, hstep, hb]
  rfl

theorem execProgramLineDone_goesOn {s : State} {l m : ProgLine} {more : List ProgLine} (h : s.sq.state = .programming)
    (hstep : s.sq.step = .sent) (hb : s.sq.buffer = l :: m :: more) :
    execProgramLineDone s = .next ((s.lineWritten l (m :: more)).beginLine m).settle := by
  unfold execProgramLineDone
  rw [h, hstep, hb]
  rfl

theorem State.lineWritten_touches (l : ProgLine) (rest : List ProgLine) (s : State) :
    Touches [.fs, .sq, .store] s (s.lineWritten l rest) := by
  constructor <;> simp [State.lineWritten]

theorem State.lineWritten_fs (l : ProgLine) (rest : List ProgLine) (s : State) :
    (s.lineWritten l rest).fs = s.fs.releaseBank (bankOf l.page) := rfl

theorem State.lineWritten_store (l : ProgLine) (rest : List ProgLine) (s : State) :
    (s.lineWritten l rest).store = (s.writeLine l).store := rfl

/-- R125: the end of a session, in terms of the kinds recorded. -/
theorem State.endSession_eq (s : State) :
    s.endSession = State.post
      (.storeDone (.program s.sq.programmed s.sq.discarded s.sq.failed) (if s.sq.kinds = {} then .done else .locked) s.sq.kinds)
      { s with sq := { s.sq with state := if s.sq.kinds = {} then .idle else .locked, lockPending := false, step := .read } } := by
  unfold State.endSession ErrorKinds.isEmpty
  dsimp only
  by_cases h : s.sq.kinds = {}
  · rw [beq_iff_eq.2 h, if_pos h, if_pos h]
    rfl
  · rw [beq_eq_false_iff_ne.2 h, if_neg h, if_neg h]
    rfl

/-- Settles O26. -/
theorem programLineDoneWritesTheLine : Obligations.ProgramLineDoneWritesTheLine := by
  intro s l rest h hstep hb
  have written {u t : State} {bs : List Block} (hu : u = s.lineWritten l rest) (ht : Touches bs u t) (hstore : .store ∉ bs) :
      (∀ i, i < 256 → readByte t.store (4096 * l.page + l.offset + i) = l.data.getD i 255) ∧
        sameOutside (4096 * l.page + l.offset) 256 s t := by
    have hs : t.store = (s.writeLine l).store := by rw [ht.store hstore, hu, State.lineWritten_store]
    refine ⟨fun i hi => ?_, fun x hx => ?_⟩
    · rw [hs, readByte_writeLine_in s l _ (Nat.le_add_right _ _) (Nat.add_lt_add_left hi _), Nat.add_sub_cancel_left]
    · rw [hs, readByte_writeLine_out s l x hx]
  have hw := s.lineWritten_touches l rest
  obtain ⟨hfs, hfree, -⟩ := s.fs.releaseBank_frees (bankOf l.page)
  cases rest with
  | nil =>
    have he := (s.lineWritten l []).endSession_touches
    have hall := he.comp (ds := [.olu, .sq]) (State.settle_touches _) (by decide) (by decide)
    have hwhole := hw.comp (ds := [.olu, .fs, .sq, .store]) hall (by decide) (by decide)
    obtain ⟨hin, hout⟩ := written rfl hall (by decide)
    have heq := (s.lineWritten l []).endSession_eq
    refine ⟨_, execProgramLineDone_ends h hstep hb, hin, hout, ?_, ?_, ?_, ?_, ?_, ?_, fun _ => ⟨?_, ?_⟩, nofun,
      hwhole.fdm (by decide), hwhole.ch (by decide), hwhole.ce (by decide), hwhole.ex (by decide), hwhole.sa (by decide), hwhole.time (by decide)⟩
    case refine_4 => rw [hall.fs (by decide), State.lineWritten_fs]; exact hfree
    all_goals
      rw [heq]
      rfl
  | cons m more =>
    have hg := (s.lineWritten l (m :: more)).beginLine_touches m
    have hall := hg.comp (ds := [.olu, .fs, .sq]) (State.settle_touches _) (by decide) (by decide)
    have hwhole := hw.comp (ds := [.olu, .fs, .sq, .store]) hall (by decide) (by decide)
    obtain ⟨hin, hout⟩ := written rfl hall (by decide)
    obtain ⟨hbanks, hplaces⟩ := (s.fs.releaseBank (bankOf l.page)).request_places (lineFetch m)
    refine ⟨_, execProgramLineDone_goesOn h hstep hb, hin, hout, rfl, rfl, rfl, ?_, rfl, rfl, nofun, fun n ns hn => ⟨rfl, h, rfl, ?_⟩,
      hwhole.fdm (by decide), hwhole.ch (by decide), hwhole.ce (by decide), hwhole.ex (by decide), hwhole.sa (by decide), hwhole.time (by decide)⟩
    · exact (congrArg (fun v : Vector Bank 8 => v[bankOf l.page]) hbanks).trans_ne hfree
    · obtain ⟨rfl, -⟩ := List.cons.inj hn
      refine hplaces.trans ?_
      rw [hfs]
      rfl

/-! ### ERASE_PAUSED and ERASE_DONE (R126 to R128) -/

theorem execErasePaused_pauses {s : State} {b : Nat} (h : s.sq.state = .erasing) (ha : s.sq.suspendAwaited = true)
    (hb : s.sq.eraseBlock = some b) : execErasePaused s = .next (s.erasePaused b).fetchesIdle.settle := by
  unfold execErasePaused
  rw [h, ha, hb]
  rfl

theorem execEraseDone_erases {s : State} {b : Nat} (h : s.sq.state = .erasing) (hsent : s.sq.eraseSent = true)
    (hb : s.sq.eraseBlock = some b) : execEraseDone s = .next (s.blockErased b).settle := by
  unfold execEraseDone
  split
  · next c _ _ hc =>
    obtain rfl : c = b := Option.some.inj (hc.symm.trans hb)
    rfl
  · next hnot => exact absurd hb (hnot b h hsent)

/-- Bytes left undefined leave every other byte as it was. -/
theorem State.undefine_out (a n : Nat) (s : State) : sameOutside a n s (s.undefine a n) := fun _ hx => readByte_splice_out _ _ _ _ _ hx

theorem State.erasePaused_touches (b : Nat) (s : State) : Touches [.fs, .sq, .store] s (s.erasePaused b) := by
  constructor <;> simp [State.erasePaused]

theorem State.blockErased_touches (b : Nat) (s : State) : Touches [.olu, .fs, .sq, .store] s (s.blockErased b) := by
  constructor <;> simp [State.blockErased]

theorem Fs.releaseAll_isIdle (f : Fs) : f.releaseAll.isIdle = f.isIdle := by
  obtain ⟨v, hv, -⟩ := f.releaseAll_frees
  rw [hv]
  rfl

/-- Settles O28. -/
theorem eraseReportsPauseAndComplete : Obligations.EraseReportsPauseAndComplete := by
  intro s b h hb
  refine ⟨fun ha => ?_, fun hsent => ?_⟩
  · have hi := State.fetchesIdle_touches (s.erasePaused b)
    have hall := hi.comp (ds := [.olu, .fs, .sq]) (State.settle_touches _) (by decide) (by decide)
    have hwhole := (s.erasePaused_touches b).comp (ds := [.olu, .fs, .sq, .store]) hall (by decide) (by decide)
    have hstate : (s.erasePaused b).sq.state = .eraseSuspended := by rw [State.erasePaused_sq]
    have hidle : (s.erasePaused b).fs.isIdle = s.fs.isIdle := by rw [State.erasePaused_fs, Fs.releaseAll_isIdle]
    have heq := (s.erasePaused b).fetchesIdle_eq
    rw [hstate, hidle] at heq
    refine ⟨_, execErasePaused_pauses h ha hb, fun x hx => ?_, ?_, fun hid => ?_, fun hid n => ?_, hwhole.fdm (by decide), hwhole.ch (by decide),
      hwhole.ce (by decide), hwhole.ex (by decide), hwhole.sa (by decide)⟩
    · rw [hall.store (by decide), State.erasePaused_store]
      exact State.undefine_out _ _ s x hx
    · rw [State.settle_sq, heq]
      cases hid : s.fs.isIdle
      · exact s.erasePaused_sq b
      · exact congrArg (fun q : Sq => { q with state := .erasing }) (s.erasePaused_sq b)
    · rw [State.settle_fs, heq]
      exact congrArg Fs.banks (if_pos ⟨rfl, hid⟩)
    · rw [State.settle_fs, heq]
      refine (congrArg (fun f : Fs => f.banks[n]) ((if_neg fun k => ?_).trans (s.erasePaused_fs b))).trans_ne (s.fs.releaseAll_banks n)
      rw [hid] at k
      cases k.2
  · have hwhole := (s.blockErased_touches b).comp (ds := [.olu, .fs, .sq, .store]) (State.settle_touches _) (by decide) (by decide)
    refine ⟨_, execEraseDone_erases h hsent hb, fun x h1 h2 => ?_, fun x hx => ?_, ?_, ?_, fun n => ?_, hwhole.fdm (by decide), hwhole.ch (by decide),
      hwhole.ce (by decide), hwhole.ex (by decide), hwhole.sa (by decide)⟩
    · rw [State.settle_store, State.blockErased_store]
      exact readByte_blankBlock_in s b x h1 h2
    · rw [State.settle_store, State.blockErased_store]
      exact readByte_blankBlock_out s b x hx
    · exact congrArg Olu.transmit (s.blockErased_olu b)
    · rw [State.settle_sq, State.blockErased_sq]
    · rw [State.settle_fs]
      exact (congrArg (fun f : Fs => f.banks[n]) (s.blockErased_fs b)).trans_ne (s.fs.releaseAll_banks n)

end Sys2Proof.Machine
end


section
/-! PROOF. STORE_ABORT (R132). -/

namespace Sys2Proof.Machine

/-! ### The store's side -/

theorem State.stopStore_line {s : State} {l : ProgLine} {rest : List ProgLine} (h : s.sq.state = .programming)
    (hb : s.sq.buffer = l :: rest) (hstep : s.sq.step = .sent) : s.stopStore = s.undefine (4096 * l.page + l.offset) 256 := by
  unfold State.stopStore
  rw [h, hb]
  exact if_pos hstep

theorem State.stopStore_erase {s : State} {b : Nat}
    (h : s.sq.state = .eraseSuspended ∨ (s.sq.state = .erasing ∧ s.sq.eraseSent = true)) (hb : s.sq.eraseBlock = some b) :
    s.stopStore = s.undefine (262144 * b) 262144 := by
  unfold State.stopStore
  obtain h | ⟨h, hsent⟩ := h
  · rw [h, hb]
  · rw [h, hb]
    exact if_pos hsent

/-- R132: only a line or an erase that has been sent, or is suspended, is stopped in the store. -/
theorem State.stopStore_none {s : State}
    (h : (s.sq.state = .erasing ∧ s.sq.eraseSent = false) ∨ (s.sq.state = .programming ∧ s.sq.step ≠ .sent) ∨
      s.sq.state = .idle ∨ s.sq.state = .locked ∨ s.sq.state = .checking) : s.stopStore = s := by
  unfold State.stopStore
  split
  · next hp _ =>
    have hstep : s.sq.step ≠ .sent := by simpa [hp] using h
    exact if_neg hstep
  · next hp _ =>
    have hsent : s.sq.eraseSent = false := by simpa [hp] using h
    exact if_neg (by rw [hsent]; decide)
  · next hp _ => simp [hp] at h
  · rfl

/-! ### The order (R132) -/

/-- R132: the state after an abort. -/
def State.aborted (s : State) : State :=
  { s.stopStore with
    olu := s.olu.post (.storeDone s.sq.abortedOp .aborted (abortKinds s.sq.kinds)), sq := s.sq.aborted,
    fs := s.fs.stopSequencer s.sq }

theorem State.stopStore_inHand (h : Head) (s : State) : (s.inHand h).stopStore = s.stopStore.inHand h := by
  unfold State.stopStore
  rw [State.inHand_sq]
  split
  · split <;> rfl
  · split <;> rfl
  · rfl
  · rfl

theorem Olu.post_inHand_comm (n : Notice) (h : Option Head) (o : Olu) : Olu.post n { o with inHand := h } = { o.post n with inHand := h } := by
  unfold Olu.post
  split <;> rfl

theorem actStoreAbort_inHand (h : Head) (s : State) :
    actStoreAbort (s.inHand h) = (s.aborted.inHand h, .accept (u8 s.sq.abortedOp.code ++ u8 s.sq.kinds.byte)) := by
  have holu : s.stopStore.olu = s.olu := s.stopStore_touches.olu (by decide)
  have hfs : s.stopStore.fs = s.fs := s.stopStore_fs
  unfold actStoreAbort State.aborted
  rw [State.stopStore_inHand, State.inHand_sq]
  dsimp only
  rw [State.inHand_fs, hfs]
  refine congrArg (fun u => (u, _)) ?_
  unfold State.post
  dsimp only
  rw [State.inHand_olu, holu, Olu.post_inHand_comm]
  rfl

theorem abortKinds_eq (k : ErrorKinds) : abortKinds k = {} ∨ abortKinds k = k := by
  unfold abortKinds
  split
  · exact .inl rfl
  · split
    · exact .inr rfl
    · exact .inl rfl

theorem Fs.withdraw_gone (f : Fs) (q : Requester) : ∀ r ∈ (f.withdraw q).queue ++ (f.withdraw q).held, r.requester ≠ q := by
  intro r hr
  have h : r ∈ f.queue.filter (fun r => r.requester != q) ∨ r ∈ f.held.filter (fun r => r.requester != q) := List.mem_append.1 hr
  simp only [List.mem_filter, bne_iff_ne] at h
  exact h.elim (·.2) (·.2)

/-! ### The scheduler's side -/

theorem Fs.stopSequencer_line {q : Sq} {l : ProgLine} {rest : List ProgLine} (h : q.state = .programming) (hb : q.buffer = l :: rest)
    (f : Fs) : f.stopSequencer q = if q.step = .read then f.withdraw .sequencer else f.releaseBank (bankOf l.page) := by
  unfold Fs.stopSequencer
  rw [h, hb]

theorem Fs.stopSequencer_check {q : Sq} (h : q.state = .checking) (f : Fs) : f.stopSequencer q = f.withdraw .sequencer := by
  unfold Fs.stopSequencer
  rw [h]

theorem Fs.stopSequencer_erase {q : Sq} (h : q.state = .erasing) (f : Fs) : f.stopSequencer q = f.releaseAll := by
  unfold Fs.stopSequencer
  rw [h]

theorem Fs.stopSequencer_none {q : Sq} (h : q.state = .eraseSuspended ∨ q.state = .idle ∨ q.state = .locked) (f : Fs) :
    f.stopSequencer q = f := by
  unfold Fs.stopSequencer
  obtain h | h | h := h <;> rw [h]

/-! ### The sequencer's side -/

/-- R132: what every abort leaves of the sequencer. -/
theorem Sq.aborted_rests (q : Sq) :
    q.aborted.state = .idle ∧ q.aborted.kinds = {} ∧ q.aborted.lockPending = false ∧ q.aborted.latest = some 0x36 ∧
      q.aborted.mode = q.mode ∧ q.aborted.limit = q.limit ∧ q.aborted.window = q.window ∧ q.aborted.failed = q.failed := by
  unfold Sq.aborted
  split <;> exact ⟨rfl, rfl, rfl, rfl, rfl, rfl, rfl, rfl⟩

theorem Sq.aborted_session {q : Sq} (h : q.state = .programming) :
    q.aborted.buffer = [] ∧ q.aborted.programmed = q.programmed ∧
      q.aborted.discarded = min 65535 (q.discarded + q.buffer.length) := by
  unfold Sq.aborted
  rw [h]
  exact ⟨rfl, rfl, rfl⟩

theorem Sq.aborted_check {q : Sq} (h : q.state = .checking) : q.aborted.check = none := by
  unfold Sq.aborted
  rw [h]

/-- R132: the block of an erase that was sent or is suspended becomes the interrupted block. -/
theorem Sq.aborted_erase {q : Sq} (h : q.state = .eraseSuspended ∨ (q.state = .erasing ∧ q.eraseSent = true)) :
    q.aborted.interrupted = q.eraseBlock ∧ q.aborted.eraseBlock = none ∧ q.aborted.suspendAwaited = false := by
  unfold Sq.aborted
  obtain h | ⟨h, hsent⟩ := h
  · rw [h]
    exact ⟨rfl, rfl, rfl⟩
  · rw [h]
    exact ⟨if_pos hsent, rfl, rfl⟩

theorem Sq.aborted_unsent {q : Sq} (h : q.state = .erasing) (hsent : q.eraseSent = false) : q.aborted.interrupted = q.interrupted := by
  unfold Sq.aborted
  rw [h]
  exact if_neg (by rw [hsent]; decide)

/-- Settles O32. -/
theorem storeAbortEndsTheOperation : Obligations.StoreAbortEndsTheOperation := by
  intro s tag hs
  have hstop := s.stopStore_touches
  obtain ⟨hstate, hkinds, hlock, hlatest, hmode, hlimit, hwindow, hfailed⟩ := s.sq.aborted_rests
  have hstore : s.aborted.store = s.stopStore.store := rfl
  have same (h : s.stopStore = s) : sameStore s s.aborted := fun x => by rw [hstore, h]
  have outside {a n : Nat} (h : s.stopStore = s.undefine a n) : sameOutside a n s s.aborted := fun x hx => by
    rw [hstore, h]
    exact State.undefine_out a n s x hx
  refine ⟨s.aborted, exec_order_answers .storeAbort rfl hs rfl rfl (actStoreAbort_inHand _ s), hstate, hkinds, hlock, hlatest, hmode, hlimit,
    hwindow, hfailed, Sq.aborted_session, fun b h hb => ?_, fun h hsent => ⟨Sq.aborted_unsent h hsent, same (State.stopStore_none (.inl ⟨h, hsent⟩))⟩,
    fun l rest h hb hstep => outside (State.stopStore_line h hb hstep), fun h hstep => same (State.stopStore_none (.inr (.inl ⟨h, hstep⟩))),
    fun h => same (State.stopStore_none (.inr (.inr h))), Sq.aborted_check, ⟨_, abortKinds_eq s.sq.kinds, rfl⟩, fun h => ?_,
    fun l rest h hb hstep => ?_, fun h => ?_, fun h => Fs.stopSequencer_none h s.fs, hstop.fdm (by decide), hstop.ch (by decide),
    hstop.ce (by decide), hstop.ex (by decide), hstop.sa (by decide)⟩
  · obtain ⟨hint, hblock, hawait⟩ := Sq.aborted_erase h
    exact ⟨hint.trans hb, hblock, hawait, outside (State.stopStore_erase h hb)⟩
  · have hf : s.aborted.fs = s.fs.withdraw .sequencer := by
      obtain ⟨hp, hstep, hb⟩ | hc := h
      · obtain ⟨l, rest, hb⟩ := List.exists_cons_of_ne_nil hb
        exact (Fs.stopSequencer_line hp hb s.fs).trans (if_pos hstep)
      · exact Fs.stopSequencer_check hc s.fs
    exact ⟨hf, hf ▸ s.fs.withdraw_gone .sequencer⟩
  · have hf : s.aborted.fs = s.fs.releaseBank (bankOf l.page) := (Fs.stopSequencer_line h hb s.fs).trans (if_neg hstep)
    exact ⟨hf, hf ▸ (s.fs.releaseBank_frees (bankOf l.page)).2.1⟩
  · have hf : s.aborted.fs = s.fs.releaseAll := Fs.stopSequencer_erase h s.fs
    exact ⟨hf, fun n => hf ▸ s.fs.releaseAll_banks n⟩

end Sys2Proof.Machine
end


section
/-! PROOF. The reset sources, start-up and the transmitter's events (R172, R176, R179 to R182). -/

namespace Sys2Proof.Machine

/-! ### A reset (R102, R179) -/

theorem Olu.transmit_stopped {o : Olu} (h : o.phase ≠ .running) : o.transmit = o := if_neg fun k => h k.1

/-- R102: a reset leaves undefined the target of a program or an erase in flight, and nothing else of the store. -/
theorem State.losesTarget_store (s : State) :
    (s.sq.inFlight = .none → s.losesTarget.store = s.store) ∧
      (∀ p, s.sq.inFlight = .program p → sameOutside (4096 * p) 4096 s s.losesTarget) ∧
      (∀ b, s.sq.inFlight = .erase b → sameOutside (262144 * b) 262144 s s.losesTarget) := by
  unfold State.losesTarget
  refine ⟨fun h => ?_, fun p h => ?_, fun b h => ?_⟩
  · rw [h]
  · rw [h]
    exact State.undefine_out _ _ s
  · rw [h]
    exact State.undefine_out _ _ s

/-- R179: every block but the link and the scheduler stands at its value after reset in `t`, and the store changes only in the target
of the operation that was in flight at `s`. -/
def State.freshAfter (s t : State) : Prop :=
  t.fdm = {} ∧ t.ch = Vector.replicate 4 {} ∧ t.ce = {} ∧ t.sq = {} ∧ t.ex = {} ∧ t.sa = {} ∧ t.sa.strobeHigh = false ∧ t.time = 0 ∧
    t.pending = s.pending ∧ (s.sq.inFlight = .none → t.store = s.store) ∧
    (∀ p, s.sq.inFlight = .program p → sameOutside (4096 * p) 4096 s t) ∧
    (∀ b, s.sq.inFlight = .erase b → sameOutside (262144 * b) 262144 s t)

theorem State.resetTo_fresh (record : ResetRecord) (phase : Phase) (o : Olu) (s : State) :
    s.freshAfter { s.resetTo record phase with olu := o } :=
  ⟨rfl, rfl, rfl, rfl, rfl, rfl, rfl, rfl, rfl, s.losesTarget_store⟩

/-- R179: a reset leaves the part out of its running phase, so that no return begins. -/
theorem State.resetTo_settle {phase : Phase} (h : phase ≠ .running) (record : ResetRecord) (s : State) :
    (s.resetTo record phase).settle = s.resetTo record phase :=
  congrArg (fun o => { s.resetTo record phase with olu := o }) (Olu.transmit_stopped h)

theorem Olu.afterReset_ne (o : Olu) : o.afterReset ≠ .running := by
  unfold Olu.afterReset
  split <;> decide

theorem Olu.afterReset_startup (o : Olu) : (o.afterReset == .startup) = !o.resetLow := by
  unfold Olu.afterReset
  cases o.resetLow <;> rfl

theorem execResetLineAssert_resets {s : State} (h : s.olu.resetLow = false) :
    execResetLineAssert s = .next { s.resetTo { s.olu.record.note s.sq.inFlight with line := true } .inReset with
      olu := { phase := .inReset, resetLow := true, record := { s.olu.record.note s.sq.inFlight with line := true } } } := by
  unfold execResetLineAssert
  rw [if_neg (by rw [h]; decide)]
  have hstopped : Phase.inReset ≠ .running := by decide
  exact congrArg (fun o => Host.Outcome.next { s.resetTo { s.olu.record.note s.sq.inFlight with line := true } .inReset with olu := o })
    (Olu.transmit_stopped (o := { phase := .inReset, resetLow := true, record := { s.olu.record.note s.sq.inFlight with line := true } }) hstopped)

theorem execStartupEnd_ends {s : State} (h : s.olu.phase = .startup) (hc : s.fs.closing = Vector.replicate 8 false)
    (hn : s.olu.notices.length < 32) :
    execStartupEnd s = .next ({ s with olu := { s.olu with
      phase := .running, receiver := .waiting, notices := .resetDone s.olu.record :: s.olu.notices, lost := 0 } } : State).settle := by
  have hall : (Notice.resetDone s.olu.record :: s.olu.notices).take 32 = .resetDone s.olu.record :: s.olu.notices :=
    List.take_of_length_le (by rw [List.length_cons]; omega)
  unfold execStartupEnd
  rw [if_pos ⟨h, hc⟩, hall]

/-- Settles O41. -/
theorem resetSourcesAndStartUp : Obligations.ResetSourcesAndStartUp := by
  intro s fresh
  refine ⟨⟨s.resetTo {} s.olu.afterReset, ?_, s.resetTo_fresh {} s.olu.afterReset _, rfl, ?_⟩, fun h => ?_, fun h => ⟨if_pos h, if_pos h⟩, execStartupEnd_ends⟩
  · exact congrArg Host.Outcome.next (s.resetTo_settle s.olu.afterReset_ne {})
  · exact congrArg (fun b => ({ closing := Vector.replicate 8 b } : Fs)) s.olu.afterReset_startup
  · exact ⟨_, execResetLineAssert_resets h, s.resetTo_fresh { s.olu.record.note s.sq.inFlight with line := true } .inReset _, rfl, rfl, rfl, rfl⟩

/-! ### The transmitter (R172, R176, R181) -/

theorem execAnswerSent_frees {s : State} {r : Return} (hr : s.olu.sending = some r) (ha : r.isAnswer = true)
    (hd : s.olu.resetDue = false) :
    execAnswerSent s = .next ({ s with olu := { s.olu with sending := none, sent := 0, inHand := none } } : State).settle := by
  unfold execAnswerSent
  rw [hr]
  exact (if_pos ha).trans (if_neg (by rw [hd]; decide))

theorem execAnswerSent_resets {s : State} {r : Return} (hr : s.olu.sending = some r) (ha : r.isAnswer = true)
    (hd : s.olu.resetDue = true) : execAnswerSent s = .next s.orderReset := by
  unfold execAnswerSent
  rw [hr]
  exact (if_pos ha).trans ((if_pos hd).trans (congrArg Host.Outcome.next (s.resetTo_settle s.olu.afterReset_ne _)))

theorem execNoticeSent_frees {s : State} {r : Return} (hr : s.olu.sending = some r) (ha : r.isAnswer = false) :
    execNoticeSent s = .next ({ s with olu := { s.olu with sending := none, sent := 0 } } : State).settle := by
  unfold execNoticeSent
  rw [hr]
  exact if_neg (by rw [ha]; decide)

/-- R176: a free transmitter with no answer waiting begins the notice at the head of the queue. -/
theorem Olu.transmit_notice {o : Olu} {n : Notice} {rest : List Notice} (hp : o.phase = .running) (hs : o.sending = none)
    (ha : o.answerSlot = none) (hn : o.notices = n :: rest) :
    o.transmit = { o with
      sending := some ⟨n.kind, BitVec.ofNat 8 o.lost, n.target, n.body⟩, lost := 0, notices := rest } := by
  unfold Olu.transmit
  rw [if_pos ⟨hp, hs⟩]
  split
  · next r hr => cases ha.symm.trans hr
  · split
    · next h => cases hn.symm.trans h
    · next m ms h =>
      obtain ⟨rfl, rfl⟩ := List.cons.inj (hn.symm.trans h)
      rfl

/-- Settles O42. -/
theorem returnsSentAndTheResetOrder : Obligations.ReturnsSentAndTheResetOrder := by
  intro s
  refine ⟨fun r => execAnswerSent_frees, fun r => execNoticeSent_frees, fun r n rest hr ha hp hslot hn => ?_, fun tag hs => ?_,
    fun r hr ha hd hlow => ⟨s.orderReset, execAnswerSent_resets hr ha hd, rfl, rfl, rfl, rfl, rfl, rfl, ?_, rfl, ?_⟩⟩
  · refine (execNoticeSent_frees hr ha).trans ?_
    exact congrArg (fun o => Host.Outcome.next { s with olu := o })
      (Olu.transmit_notice (o := { s.olu with sending := none, sent := 0 }) hp rfl hslot hn)
  · exact exec_order_answers .reset rfl hs rfl rfl rfl
  · exact congrArg (fun b => ({ closing := Vector.replicate 8 b } : Fs)) (s.olu.afterReset_startup.trans (by rw [hlow]; rfl))
  · have hphase : s.olu.afterReset = .startup := eq_of_beq (s.olu.afterReset_startup.trans (by rw [hlow]; rfl))
    unfold State.orderReset State.resetTo ResetRecord.note
    dsimp only
    rw [hphase, hlow]

end Sys2Proof.Machine
end


section
/-! PROOF. CANCEL (R70, R80): references released together, the channel emptied, its composition discarded. -/

namespace Sys2Proof.Machine

/-! ### References that end (R21, R27) -/

/-- What the end of references leaves of the mount unit. -/
theorem Fdm.retireFrom_rest (d : Fdm) (p : Fin 8) :
    (d.retireFrom p).1.requests = d.requests ∧ (d.retireFrom p).1.recency = d.recency ∧ (d.retireFrom p).1.lock = d.lock := by
  unfold Fdm.retireFrom
  split
  · split <;> exact ⟨rfl, rfl, rfl⟩
  · exact ⟨rfl, rfl, rfl⟩

theorem Fdm.decRef_rest (d : Fdm) (p : Fin 8) :
    (d.decRef p).1.requests = d.requests ∧ (d.decRef p).1.recency = d.recency ∧ (d.decRef p).1.lock = d.lock := by
  unfold Fdm.decRef
  dsimp only
  split
  · exact Fdm.retireFrom_rest _ p
  · exact ⟨rfl, rfl, rfl⟩

theorem Fdm.decRefs_rest (ps : List (Fin 8)) (d : Fdm) :
    (d.decRefs ps).1.requests = d.requests ∧ (d.decRefs ps).1.recency = d.recency ∧ (d.decRefs ps).1.lock = d.lock := by
  induction ps generalizing d with
  | nil => exact ⟨rfl, rfl, rfl⟩
  | cons p ps ih =>
    obtain ⟨h1, h2, h3⟩ := ih (d.decRef p).1
    obtain ⟨k1, k2, k3⟩ := d.decRef_rest p
    exact ⟨h1.trans k1, h2.trans k2, h3.trans k3⟩

/-- A position's count reduced by one reference. -/
def Fdm.counted (d : Fdm) (p : Fin 8) : Fdm := d.setPos p { d.pos[p] with count := d.pos[p].count - 1 }

theorem Fdm.counted_pos (d : Fdm) (p x : Fin 8) :
    (d.counted p).pos[x] = if x = p then { d.pos[p] with count := d.pos[p].count - 1 } else d.pos[x] := setAt_get _ _ _ _

theorem Fdm.counted_face (d : Fdm) (p x : Fin 8) : (d.counted p).pos[x].state = d.pos[x].state := by
  rw [Fdm.counted_pos]
  split
  · next h => rw [h]
  · rfl

/-- A position whose WITHDRAWING face has retired from it. -/
def Fdm.retired (d : Fdm) (p : Fin 8) (f : Fin 128) : Fdm := { d with pos := setAt d.pos p {}, dir := setAt d.dir f {} }

/-- R21, R27: a reference that ends lowers the count, and the last one to a WITHDRAWING face retires it. -/
theorem Fdm.decRef_cases (d : Fdm) (p : Fin 8) :
    d.decRef p = (d.counted p, []) ∨
      ∃ f, d.pos[p].count - 1 = 0 ∧ d.pos[p].state.face = some f ∧ d.dir[f].state = .withdrawing ∧
        d.decRef p = ((d.counted p).retired p f, [.faceRetired f p]) := by
  have hc : (d.counted p).pos[p].count = d.pos[p].count - 1 := by rw [Fdm.counted_pos, if_pos rfl]
  have hface := d.counted_face p p
  change (if (d.counted p).pos[p].count = 0 then (d.counted p).retireFrom p else (d.counted p, [])) = _ ∨
    ∃ f, _ ∧ _ ∧ _ ∧ (if (d.counted p).pos[p].count = 0 then (d.counted p).retireFrom p else (d.counted p, [])) = _
  split
  · next h0 =>
    cases hf : d.pos[p].state.face with
    | none =>
      left
      unfold Fdm.retireFrom
      rw [hface, hf]
    | some f =>
      by_cases hw : d.dir[f].state = .withdrawing
      · exact .inr ⟨f, hc.symm.trans h0, rfl, hw, Fdm.retireFrom_retires (by rw [hface, hf]) hw⟩
      · exact .inl (Fdm.retireFrom_stays (by rw [hface, hf]) hw)
  · exact .inl rfl

theorem Fdm.retired_pos (d : Fdm) (p x : Fin 8) (f : Fin 128) : (d.retired p f).pos[x] = if x = p then {} else d.pos[x] := setAt_get _ _ _ _

theorem Fdm.retired_dir (d : Fdm) (p : Fin 8) (f g : Fin 128) : (d.retired p f).dir[g] = if g = f then {} else d.dir[g] := setAt_get _ _ _ _

/-- An EMPTY position and an UNDEFINED face stay so. -/
theorem Fdm.decRef_gone {d : Fdm} {p : Fin 8} {f : Fin 128} (h : d.pos[p] = {} ∧ d.dir[f] = {}) (x : Fin 8) :
    (d.decRef x).1.pos[p] = {} ∧ (d.decRef x).1.dir[f] = {} := by
  obtain ⟨hp, hf⟩ := h
  have hcounted : (d.counted x).pos[p] = {} := by
    rw [Fdm.counted_pos]
    split
    · next e =>
      rw [← e, hp]
      rfl
    · exact hp
  obtain e | ⟨g, -, -, -, e⟩ := d.decRef_cases x <;> rw [e]
  · exact ⟨hcounted, hf⟩
  · constructor
    · rw [Fdm.retired_pos, hcounted, ite_self]
    · rw [Fdm.retired_dir]
      split
      · rfl
      · exact hf

theorem Fdm.decRefs_gone {d : Fdm} {p : Fin 8} {f : Fin 128} (h : d.pos[p] = {} ∧ d.dir[f] = {}) (ps : List (Fin 8)) :
    (d.decRefs ps).1.pos[p] = {} ∧ (d.decRefs ps).1.dir[f] = {} := by
  induction ps generalizing d with
  | nil => exact h
  | cons x ps ih => exact ih (Fdm.decRef_gone h x)

/-- A WITHDRAWING face that one position holds and no other. -/
structure Fdm.SoleAt (d : Fdm) (p : Fin 8) (f : Fin 128) : Prop where
  face : d.pos[p].state.face = some f
  withdrawing : d.dir[f].state = .withdrawing
  sole : ∀ x : Fin 8, d.pos[x].state.face = some f → x = p

/-- The face stays while references to its position are left. -/
theorem Fdm.SoleAt.decRef {d : Fdm} {p x : Fin 8} {f : Fin 128} (h : d.SoleAt p f) (hx : x = p → d.pos[p].count - 1 ≠ 0) :
    (d.decRef x).1.SoleAt p f := by
  have hcounted (y : Fin 8) : (d.counted x).pos[y].state.face = d.pos[y].state.face := congrArg MountState.face (d.counted_face x y)
  obtain e | ⟨g, h0, hg, -, e⟩ := d.decRef_cases x <;> rw [e]
  · exact ⟨(hcounted p).trans h.face, h.withdrawing, fun y hy => h.sole y ((hcounted y).symm.trans hy)⟩
  · have hne : x ≠ p := fun k => hx k (k ▸ h0)
    have hgf : f ≠ g := fun k => hne (h.sole x (k ▸ hg))
    refine ⟨?_, ?_, fun y hy => ?_⟩
    · rw [Fdm.retired_pos, if_neg hne.symm]
      exact (hcounted p).trans h.face
    · rw [Fdm.retired_dir, if_neg hgf]
      exact h.withdrawing
    · rw [Fdm.retired_pos] at hy
      split at hy
      · cases hy
      · exact h.sole y ((hcounted y).symm.trans hy)

/-- R21: the last reference to a WITHDRAWING face retires it. -/
theorem Fdm.SoleAt.retires {d : Fdm} {p : Fin 8} {f : Fin 128} (h : d.SoleAt p f) (h0 : d.pos[p].count - 1 = 0) :
    d.decRef p = ((d.counted p).retired p f, [.faceRetired f p]) := by
  have hface : (d.counted p).pos[p].state.face = some f := (congrArg MountState.face (d.counted_face p p)).trans h.face
  refine Eq.trans (if_pos ?_) (Fdm.retireFrom_retires hface h.withdrawing)
  exact (congrArg MountPos.count ((d.counted_pos p p).trans (if_pos rfl))).trans h0

/-- R21, R27: when all references to a WITHDRAWING face end, the face retires. -/
theorem Fdm.SoleAt.decRefs {d : Fdm} {p : Fin 8} {f : Fin 128} (h : d.SoleAt p f) {ps : List (Fin 8)} (hp : p ∈ ps)
    (hc : d.pos[p].count ≤ ps.count p) :
    (d.decRefs ps).1.pos[p] = {} ∧ (d.decRefs ps).1.dir[f] = {} ∧ Notice.faceRetired f p ∈ (d.decRefs ps).2 := by
  induction ps generalizing d with
  | nil => cases hp
  | cons x ps ih =>
    have hcount := (d.decRef_pos x p).1
    by_cases hx : x = p
    · subst hx
      rw [if_pos rfl] at hcount
      rw [List.count_cons_self] at hc
      by_cases h0 : d.pos[x].count - 1 = 0
      · have hr := h.retires h0
        obtain ⟨h1, h2⟩ := Fdm.decRefs_gone (d := (d.decRef x).1) (p := x) (f := f)
          (by rw [hr]; exact ⟨setAt_same _ _ _, setAt_same _ _ _⟩) ps
        refine ⟨h1, h2, List.mem_append_left _ ?_⟩
        rw [hr]
        exact List.mem_singleton_self _
      · have hmem : x ∈ ps := List.count_pos_iff.1 (by omega)
        obtain ⟨h1, h2, h3⟩ := ih (h.decRef (x := x) fun _ => h0) hmem (by omega)
        exact ⟨h1, h2, List.mem_append_right _ h3⟩
    · rw [if_neg (Ne.symm hx)] at hcount
      rw [List.count_cons_of_ne hx] at hc
      obtain ⟨h1, h2, h3⟩ := ih (h.decRef (x := x) fun k => absurd k hx) ((List.mem_cons.1 hp).resolve_left (Ne.symm hx)) (by omega)
      exact ⟨h1, h2, List.mem_append_right _ h3⟩

end Sys2Proof.Machine
end


section
/-! PROOF. CANCEL: what the order does to its channel, its lines and its composition (R70, R80). -/

namespace Sys2Proof.Machine

theorem actCancel_range {target : Byte} (h : 4 ≤ target.toNat) (s : State) : actCancel target s = (s, .refuse .range 0) := by
  unfold actCancel
  rw [channelOf_none h]
  rfl

/-! ### The composition discarded (R79, R80) -/

theorem State.discardOf_other {s : State} {c : Fin 4} (h : ∀ y, s.ce.comp = some y → y.channel ≠ c) : s.discardOf c = s := by
  unfold State.discardOf
  split
  · next y hy => exact if_neg (h y hy)
  · rfl

theorem Channel.applyPending_eq (x : Channel) :
    x.applyPending = { x with
      ctx := x.ctx.writeAll x.pendSet, pendSet := [], pendCol := none,
      runDir := match x.pendSet.find? (fun w => w.1 == .paraDir) with
        | some w => dirOf w.2.toNat
        | none => x.runDir
      top := x.pendCol.getD x.top, next := x.pendCol.getD x.next,
      lineCounter := if x.pendCol.isSome then 0 else x.lineCounter } := by
  unfold Channel.applyPending
  dsimp only
  split
  · next h => rw [h]; rfl
  · next h => rw [h]; rfl

/-- R80: a composition of an emptied channel without a hold request ends as discarded, its references released. -/
theorem State.discardOf_own {s : State} {c : Fin 4} {y : Composition} (hy : s.ce.comp = some y) (hc : y.channel = c)
    (hb : s.ch[c].buffer = []) (hh : s.ch[c].holdReq = false) :
    s.discardOf c = { s with
      ch := setAt s.ch c { s.ch[c].applyPending with state := .idle }, ce := { s.ce with comp := none },
      fdm := (s.fdm.decRefs y.used).1, olu := (s.fdm.decRefs y.used).2.foldl (fun o n => o.post n) s.olu } := by
  have hx := s.ch[c].applyPending_eq
  have hhold : Ending.hold .discarded s.ch[c].applyPending.holdReq = none := by
    rw [hx]
    exact if_neg (by rw [hh]; decide)
  have hstate : Ending.state .discarded s.ch[c].applyPending = .idle := by
    rw [hx]
    show Channel.testState _ = _
    unfold Channel.testState Channel.eligible Channel.hasEnd
    dsimp only
    rw [hb]
    rfl
  subst hc
  unfold State.discardOf
  rw [hy]
  refine (if_pos rfl).trans ?_
  unfold State.endWithout
  dsimp only
  rw [hhold, hstate]
  dsimp only
  unfold State.postEither
  rw [if_pos (.inr rfl), List.append_nil]
  exact State.postAll_eq _ _

/-! ### The order (R70) -/

/-- R70: the positions whose references a CANCEL of a channel ends, in the order of their release. -/
def State.cancelUsed (c : Fin 4) (s : State) : List (Fin 8) :=
  (s.ex.queued.filter (fun q => q.line.header.channel == c)).flatMap (fun q => q.line.used) ++
    ((s.ce.comp.filter (fun y => y.channel == c)).map (fun y => y.used)).getD []

/-- R30, R70: the mount unit with the channel out of its request's waiting set. -/
def State.leftRequests (c : Fin 4) (s : State) : Fdm := if s.ch[c].state = .mountWait then s.fdm.dropWaiter c else s.fdm

/-- R70, R80: the channel after a CANCEL, a composition of it discarded or not. -/
def State.cancelledChannel (c : Fin 4) (s : State) : Channel :=
  if s.ce.comp.any (fun y => y.channel == c) then { s.ch[c].cancelled.applyPending with state := .idle } else s.ch[c].cancelled

/-- R70, R80: the state after a CANCEL. -/
def State.cancelled (c : Fin 4) (s : State) : State :=
  let r := (s.leftRequests c).decRefs (s.cancelUsed c)
  { s with
    ch := setAt s.ch c (s.cancelledChannel c), ex := s.ex.withoutLines c,
    ce := if s.ce.comp.any (fun y => y.channel == c) then { s.ce with comp := none } else s.ce,
    fdm := r.1, olu := r.2.foldl (fun o n => o.post n) s.olu }

theorem foldl_post_inHand (ns : List Notice) (h : Option Head) (o : Olu) :
    ns.foldl (fun o n => o.post n) { o with inHand := h } = { ns.foldl (fun o n => o.post n) o with inHand := h } := by
  induction ns generalizing o with
  | nil => rfl
  | cons n ns ih =>
    rw [List.foldl_cons, List.foldl_cons, Olu.post_inHand_comm, ih]

theorem actCancel_eq (c : Fin 4) (s : State) :
    actCancel (chByte c) s = (State.discardOf c (State.release (s.ex.linesUsed c)
        { s with ch := setAt s.ch c s.ch[c].cancelled, fdm := s.leftRequests c, ex := s.ex.withoutLines c }),
      .accept (u16 s.ch[c].buffer.length ++ u8 (s.ex.queued.filter (fun q => q.ofChannel c)).length ++
        yesNo (s.ch[c].state == .composing) ++ yesNo (s.ex.isExposing c))) := by
  unfold actCancel
  rw [channelOf_chByte]
  rfl

theorem State.cancelled_other {s : State} {c : Fin 4} (h : ∀ y, s.ce.comp = some y → y.channel ≠ c) :
    s.ce.comp.any (fun y => y.channel == c) = false ∧ s.cancelUsed c = s.ex.linesUsed c := by
  unfold State.cancelUsed
  cases hy : s.ce.comp with
  | none => exact ⟨rfl, List.append_nil _⟩
  | some y =>
    have hf : (y.channel == c) = false := beq_eq_false_iff_ne.2 (h y hy)
    refine ⟨hf, ?_⟩
    rw [Option.filter_some, hf]
    exact List.append_nil _

theorem State.cancelled_own {s : State} {c : Fin 4} {y : Composition} (hy : s.ce.comp = some y) (hc : y.channel = c) :
    s.ce.comp.any (fun y => y.channel == c) = true ∧ s.cancelUsed c = s.ex.linesUsed c ++ y.used := by
  have ht : (y.channel == c) = true := beq_iff_eq.2 hc
  unfold State.cancelUsed
  rw [hy]
  refine ⟨ht, ?_⟩
  rw [Option.filter_some, ht]
  rfl

/-- R70: the channel emptied, its lines removed and their references released, its composition not yet discarded. -/
def State.cleared (c : Fin 4) (s : State) : State :=
  let r := (s.leftRequests c).decRefs (s.ex.linesUsed c)
  { s with
    ch := setAt s.ch c s.ch[c].cancelled, ex := s.ex.withoutLines c, fdm := r.1, olu := r.2.foldl (fun o n => o.post n) s.olu }

/-- R70, R80: what CANCEL does. -/
theorem State.cancel_state (c : Fin 4) (s : State) :
    State.discardOf c (State.release (s.ex.linesUsed c)
        { s with ch := setAt s.ch c s.ch[c].cancelled, fdm := s.leftRequests c, ex := s.ex.withoutLines c }) = s.cancelled c := by
  have hcleared : State.release (s.ex.linesUsed c)
      { s with ch := setAt s.ch c s.ch[c].cancelled, fdm := s.leftRequests c, ex := s.ex.withoutLines c } = s.cleared c :=
    State.release_eq _ _
  have hcell : (s.cleared c).ch[c] = s.ch[c].cancelled := setAt_same _ _ _
  rw [hcleared]
  by_cases h : ∃ y, s.ce.comp = some y ∧ y.channel = c
  · obtain ⟨y, hy, hc⟩ := h
    obtain ⟨hany, hused⟩ := State.cancelled_own hy hc
    rw [State.discardOf_own (s := s.cleared c) hy hc (by rw [hcell]; rfl) (by rw [hcell]; rfl), hcell]
    unfold State.cancelled State.cancelledChannel State.cleared
    dsimp only
    rw [hany, hused, Fdm.decRefs_append, List.foldl_append, setAt_twice]
    rfl
  · have hno : ∀ y, s.ce.comp = some y → y.channel ≠ c := fun y hy hc => h ⟨y, hy, hc⟩
    obtain ⟨hany, hused⟩ := State.cancelled_other hno
    rw [State.discardOf_other (s := s.cleared c) hno]
    unfold State.cancelled State.cancelledChannel State.cleared
    dsimp only
    rw [hany, hused]
    rfl

theorem Ex.isExposing_eq (e : Ex) (c : Fin 4) : e.isExposing c = e.exposing.any (fun y => y.line.header.channel == c) := by
  unfold Ex.isExposing
  cases e.exposing <;> rfl

theorem actCancel_cancels (c : Fin 4) (h : Head) (s : State) :
    actCancel (chByte c) (s.inHand h) = ((s.cancelled c).inHand h,
      .accept (u16 s.ch[c].buffer.length ++ u8 (s.ex.queued.filter (fun q => q.line.header.channel == c)).length ++
        yesNo (decide (s.ch[c].state = .composing)) ++ yesNo (s.ex.exposing.any (fun y => y.line.header.channel == c)))) := by
  have hcomp : (s.ch[c].state == .composing) = decide (s.ch[c].state = .composing) := by
    rw [Bool.eq_iff_iff, beq_iff_eq, decide_eq_true_iff]
  have hstate : (s.inHand h).cancelled c = (s.cancelled c).inHand h :=
    congrArg (fun o => { s.cancelled c with olu := o }) (foldl_post_inHand _ (some h) s.olu)
  rw [← hcomp, ← Ex.isExposing_eq, ← hstate, ← State.cancel_state]
  exact actCancel_eq c (s.inHand h)

/-! ### The chosen line and the requests -/

theorem Ex.withoutLines_eq (e : Ex) (c : Fin 4) :
    e.withoutLines c = { e with
      queued := e.queued.filter (fun q => q.line.header.channel != c),
      chosen := e.chosen.map (fun y => { y with
        removed := y.removed || (e.queued.filter (fun q => q.line.header.channel == c)).any (fun q => q.slot == y.slot) }) } := by
  unfold Ex.withoutLines
  simp only [List.any_filter]
  rfl

theorem Fdm.dropWaiter_requests (d : Fdm) (c : Fin 4) :
    (d.dropWaiter c).requests =
      (d.requests.filter (fun q => decide (c ∉ q.waiters) || q.byOrder || d.load.any (fun l => l.face == q.face) ||
        q.waiters.any (fun x => x != c))).map (fun q => { q with waiters := q.waiters.filter (fun x => x != c) }) := by
  have hload (f : Fin 128) : d.isLoading f = d.load.any (fun l => l.face == f) := by
    unfold Fdm.isLoading
    cases d.load <;> rfl
  have hleft (ws : List (Fin 4)) : (!(ws.filter (fun x => x != c)).isEmpty) = ws.any (fun x => x != c) := by
    rw [Bool.eq_iff_iff]
    simp
  have hne (x : Fin 4) : decide (x ≠ c) = (x != c) := by rw [Bool.eq_iff_iff, decide_eq_true_iff, bne_iff_ne]
  have hout (ws : List (Fin 4)) : (!decide (c ∈ ws)) = decide (c ∉ ws) := decide_not.symm
  unfold Fdm.dropWaiter
  dsimp only
  simp only [hload, hleft, hne, hout]

theorem State.leftRequests_keeps (c : Fin 4) (s : State) :
    (s.leftRequests c).pos = s.fdm.pos ∧ (s.leftRequests c).dir = s.fdm.dir ∧ (s.leftRequests c).load = s.fdm.load ∧
      (s.leftRequests c).recency = s.fdm.recency ∧ (s.leftRequests c).lock = s.fdm.lock := by
  unfold State.leftRequests
  split <;> exact ⟨rfl, rfl, rfl, rfl, rfl⟩

theorem State.cancelledChannel_empty (c : Fin 4) (s : State) :
    (s.cancelledChannel c).buffer = [] ∧ (s.cancelledChannel c).carry = none ∧ (s.cancelledChannel c).holdReq = false := by
  unfold State.cancelledChannel
  split
  · rw [Channel.applyPending_eq]
    exact ⟨rfl, rfl, rfl⟩
  · exact ⟨rfl, rfl, rfl⟩

/-- Settles O13. -/
theorem cancelEmptiesTheChannel : Obligations.CancelEmptiesTheChannel := by
  intro s tag c hs
  refine ⟨fun target h => exec_order_answers .cancel (t := s) rfl hs rfl rfl (actCancel_range h _), ?_⟩
  intro x lines used r
  obtain ⟨hpos, hdir, hload, hrec, hlock⟩ := s.leftRequests_keeps c
  obtain ⟨hreq', hrec', hlock'⟩ := Fdm.decRefs_rest (s.cancelUsed c) (s.leftRequests c)
  have hcell : (s.cancelled c).ch[c] = s.cancelledChannel c := setAt_same _ _ _
  obtain ⟨hbuf, hcarry, hhold⟩ := s.cancelledChannel_empty c
  refine ⟨s.cancelled c, exec_order_answers .cancel rfl hs rfl rfl (actCancel_cancels c _ s), by rw [hcell, hbuf], by rw [hcell, hcarry],
    by rw [hcell, hhold], fun d hd => setAt_other _ _ _ _ hd, s.ex.withoutLines_eq c, rfl, rfl, rfl, rfl, rfl, fun h => ?_, fun y hy hc => ?_,
    rfl, rfl, fun p => ?_, fun n hn => Fdm.decRefs_notices hn, fun p hp f hc hf hw hsole => ?_, ?_, hrec'.trans hrec, hlock'.trans hlock,
    fun h => ?_, fun h => ?_⟩
  · obtain ⟨hany, -⟩ := State.cancelled_other h
    refine ⟨if_neg (by rw [hany]; decide), hcell.trans (if_neg (by rw [hany]; decide))⟩
  · obtain ⟨hany, -⟩ := State.cancelled_own hy hc
    refine ⟨if_pos hany, hcell.trans ((if_pos hany).trans ?_)⟩
    rw [Channel.applyPending_eq]
    rfl
  · have h := Fdm.decRefs_pos p (s.cancelUsed c) (s.leftRequests c)
    rw [hpos] at h
    exact h
  · have hat : (s.leftRequests c).SoleAt p f := ⟨by rw [hpos]; exact hf, by rw [hdir]; exact hw, by rw [hpos]; exact hsole⟩
    exact hat.decRefs hp (by rw [hpos]; exact hc)
  · exact (Fdm.decRefs_load _ _).trans hload
  · exact hreq'.trans (congrArg Fdm.requests (if_neg h))
  · exact hreq'.trans ((congrArg Fdm.requests (if_pos h)).trans (s.fdm.dropWaiter_requests c))

end Sys2Proof.Machine
end


section
/-! PROOF. The arithmetic of lines: scaling (R3), spreading (R89 to R93) and visual order (R95, R96). -/

namespace Sys2Proof.Machine

/-! ### Scaling (R3) -/

/-- The magnitude of a scaled value: a quotient rounded to nearest, halves up. -/
def rounded (a d : Nat) : Nat := (2 * a + d) / (2 * d)

theorem rounded_near {a d : Nat} (hd : 0 < d) : 2 * (rounded a d * d) ≤ 2 * a + d ∧ 2 * a ≤ 2 * (rounded a d * d) + d := by
  have hlow : rounded a d * (2 * d) ≤ 2 * a + d := Nat.div_mul_le_self _ _
  have hhigh : 2 * a + d < (rounded a d + 1) * (2 * d) := Nat.lt_mul_of_div_lt (Nat.lt_succ_self _) (by omega)
  have hsplit : rounded a d * (2 * d) = 2 * (rounded a d * d) := by ring
  rw [Nat.add_mul, Nat.one_mul, hsplit] at hhigh
  rw [hsplit] at hlow
  omega

theorem rounded_half {a d k : Nat} (hd : 0 < d) (h : 2 * a = (2 * k + 1) * d) : rounded a d = k + 1 := by
  unfold rounded
  rw [h, show (2 * k + 1) * d + d = (k + 1) * (2 * d) by ring]
  exact Nat.mul_div_cancel _ (by omega)

theorem scale_nonneg {v : Int} (h : ¬ v < 0) (z d : Nat) : scale v z d = rounded (v.natAbs * z * 16) d := if_neg h

theorem scale_neg {v : Int} (h : v < 0) (z d : Nat) : scale v z d = -(rounded (v.natAbs * z * 16) d : Int) := if_pos h

theorem rounded_zero {d : Nat} (hd : 0 < d) : rounded 0 d = 0 := Nat.div_eq_of_lt (by omega)

/-- R3: scaling is symmetric in sign. -/
theorem scale_symm (v : Int) (z : Nat) {d : Nat} (hd : 0 < d) : scale (-v) z d = -scale v z d := by
  obtain h | rfl | h := Int.lt_trichotomy v 0
  · rw [scale_neg h, scale_nonneg (by omega), Int.natAbs_neg, Int.neg_neg]
  · rw [scale_nonneg (by decide), Int.natAbs_neg, scale_nonneg (by decide), Int.natAbs_zero, Nat.zero_mul, Nat.zero_mul, rounded_zero hd]
    rfl
  · rw [scale_nonneg (v := v) (by omega), scale_neg (by omega), Int.natAbs_neg]

/-- R3: a scaled value is within half a unit of the exact quotient. -/
theorem scale_near (v : Int) (z : Nat) {d : Nat} (hd : 0 < d) :
    2 * (scale v z d * d - v * z * 16) ≤ d ∧ 2 * (v * z * 16 - scale v z d * d) ≤ d := by
  obtain ⟨hlow, hhigh⟩ := rounded_near (a := v.natAbs * z * 16) hd
  zify at hlow hhigh
  by_cases h : v < 0
  · have hv : |v| = -v := abs_of_neg h
    rw [hv] at hlow hhigh
    rw [scale_neg h]
    constructor <;> linarith
  · have hv : |v| = v := abs_of_nonneg (by omega)
    rw [hv] at hlow hhigh
    rw [scale_nonneg h]
    constructor <;> linarith

/-- Settles O47. -/
theorem scalingRoundsToNearest : Obligations.ScalingRoundsToNearest := by
  intro v z d hd
  obtain ⟨hlow, hhigh⟩ := scale_near v z hd
  refine ⟨hlow, hhigh, fun k hk => ?_, scale_symm v z hd⟩
  have hr := rounded_half hd hk
  by_cases h : v < 0
  · rw [scale_neg h, hr, if_pos h]
    rfl
  · rw [scale_nonneg h, hr, if_neg h]
    rfl

/-! ### Spreading (R89 to R93) -/

theorem share_eq {n : Nat} (hn : 0 < n) (amount i : Nat) : share amount n i = amount / n + (if i < amount % n then 1 else 0) :=
  if_neg (Nat.ne_of_gt hn)

/-- R89: the larger shares come first. -/
theorem sum_shares (q r n : Nat) : ((List.range n).map (fun i => q + if i < r then 1 else 0)).sum = n * q + min n r := by
  induction n with
  | zero => simp
  | succ n ih =>
    rw [List.range_succ, List.map_append, List.sum_append, ih, List.map_singleton, List.sum_singleton, Nat.add_mul, Nat.one_mul]
    split <;> omega

theorem share_sum {n : Nat} (hn : 0 < n) (amount : Nat) : ((List.range n).map (share amount n)).sum = amount := by
  have hmod : amount % n < n := Nat.mod_lt _ hn
  rw [List.map_congr_left (fun i _ => share_eq hn amount i), sum_shares, Nat.min_eq_right hmod.le]
  exact Nat.div_add_mod amount n

theorem share_order {n : Nat} (hn : 0 < n) (amount : Nat) {i j : Nat} (h : i ≤ j) :
    share amount n j ≤ share amount n i ∧ share amount n i ≤ share amount n j + 1 := by
  rw [share_eq hn, share_eq hn]
  split <;> split <;> omega

theorem stage_le (left slots cap : Nat) : stage left slots cap ≤ left ∧ stage left slots cap ≤ slots * cap :=
  ⟨Nat.min_le_left _ _, Nat.min_le_right _ _⟩

/-- R91: the three stages place no more than the slack, and none more than its capacity. -/
theorem stretchStages_le (g : Setting) (slack k e n : Nat) :
    ∃ a b c, stretchStages g slack k e n = (a, b, c) ∧ a + b + c ≤ slack ∧ a ≤ k * (g.spMax - g.spOpt).toNat ∧
      b ≤ e * g.elongCap ∧ c ≤ n * g.letterCap := by
  unfold stretchStages
  split
  · have ha := stage_le slack k (g.spMax - g.spOpt).toNat
    have hb := stage_le (slack - stage slack k (g.spMax - g.spOpt).toNat) e g.elongCap
    refine ⟨_, _, _, rfl, ?_, ha.2, hb.2, (stage_le _ _ _).2⟩
    have hc := stage_le (slack - stage slack k (g.spMax - g.spOpt).toNat -
      stage (slack - stage slack k (g.spMax - g.spOpt).toNat) e g.elongCap) n g.letterCap
    omega
  · have hb := stage_le slack e g.elongCap
    have ha := stage_le (slack - stage slack e g.elongCap) k (g.spMax - g.spOpt).toNat
    refine ⟨_, _, _, rfl, ?_, ha.2, hb.2, (stage_le _ _ _).2⟩
    have hc := stage_le (slack - stage (slack - stage slack e g.elongCap) k (g.spMax - g.spOpt).toNat -
      stage slack e g.elongCap) n g.letterCap
    omega

/-- R90 to R93: what the spreading of a line that is not OVERSET keeps to. -/
structure Fill.Fits (g : Setting) (quad : Quad) (nOpt : Int) (k e n : Nat) (f : Fill) : Prop where
  within : f.width ≤ (g.ctx.measure : Int)
  filled : quad = .justify → f.unfilled = false → f.width = (g.ctx.measure : Int)
  whole : f.width = nOpt - (f.shrink : Int) + (f.stretch : Int) + (f.beyond : Int) + (f.elong : Int) + (f.letter : Int)
  elong : f.elong ≤ e * g.elongCap
  letter : f.letter ≤ n * g.letterCap
  stretch : f.stretch ≤ k * (g.spMax - g.spOpt).toNat

theorem fillLine_fits (g : Setting) (quad : Quad) (nOpt nMin : Int) (k e n : Nat) :
    Fill.Fits g quad nOpt k e n (fillLine g quad false nOpt nMin k e n) := by
  unfold fillLine
  dsimp only
  rw [if_neg (by decide)]
  split
  · next h =>
    refine ⟨le_refl _, fun _ _ => rfl, ?_, Nat.zero_le _, Nat.zero_le _, Nat.zero_le _⟩
    dsimp only
    omega
  · next h =>
    split
    · next hq =>
      obtain ⟨a, b, c, hst, hsum, ha, hb, hc⟩ := stretchStages_le g ((g.ctx.measure : Int) - nOpt).toNat k e n
      rw [hst]
      dsimp only
      split
      · refine ⟨le_refl _, fun _ _ => rfl, ?_, hb, hc, ha⟩
        dsimp only
        omega
      · split
        · refine ⟨le_refl _, fun _ _ => rfl, ?_, hb, hc, ha⟩
          dsimp only
          omega
        · refine ⟨?_, nofun, ?_, hb, hc, ha⟩
          all_goals
            dsimp only
            omega
    · next hq =>
      refine ⟨by dsimp only; omega, fun hj => absurd hj hq, ?_, Nat.zero_le _, Nat.zero_le _, Nat.zero_le _⟩
      dsimp only
      omega

/-- Settles O48. -/
theorem spreadingFillsTheMeasure : Obligations.SpreadingFillsTheMeasure := by
  refine ⟨fun amount n hn => ⟨share_sum hn amount, fun i j h => share_order hn amount h⟩, fun g quad nOpt nMin k e n => ?_⟩
  obtain ⟨h1, h2, h3, h4, h5, h6⟩ := fillLine_fits g quad nOpt nMin k e n
  exact ⟨h1, h2, h3, h4, h5, h6⟩

/-! ### Visual order (R95, R96) -/

/-- R96: a group as it stands left to right. -/
def turnGroup (g : List (Nat × Placement)) : List (Nat × Placement) :=
  match g with
  | x :: _ => if x.2.dir = .rtl then g.reverse else g
  | [] => g

theorem visualOrder_eq (para : Dir) (els : List (Nat × Placement)) :
    visualOrder para els =
      (if para = .rtl then ((groupsOf els).map turnGroup).reverse else (groupsOf els).map turnGroup).flatten := rfl

theorem turnGroup_perm (g : List (Nat × Placement)) : (turnGroup g).Perm g := by
  unfold turnGroup
  split
  · split
    · exact List.reverse_perm _
    · exact .refl _
  · exact .refl _

/-- R95: the groups, one after another, are the elements. -/
theorem groupsOf_flatten (els : List (Nat × Placement)) : (groupsOf els).flatten = els := by
  induction els with
  | nil => rfl
  | cons x rest ih =>
    rw [groupsOf]
    split
    · next y ys gs hg =>
      rw [hg] at ih
      split <;> exact congrArg (x :: ·) ih
    · exact congrArg (x :: ·) ih

theorem flatten_turned_perm (gs : List (List (Nat × Placement))) : (gs.map turnGroup).flatten.Perm gs.flatten := by
  induction gs with
  | nil => exact .refl _
  | cons g gs ih => exact (turnGroup_perm g).append ih

/-- R95: elements all of one direction are one group. -/
theorem groupsOf_uniform {d : Dir} {els : List (Nat × Placement)} (h : ∀ x ∈ els, x.2.dir = d) (hne : els ≠ []) : groupsOf els = [els] := by
  induction els with
  | nil => exact absurd rfl hne
  | cons x rest ih =>
    obtain ⟨hx, hrest⟩ := List.forall_mem_cons.1 h
    cases rest with
    | nil => rfl
    | cons y ys =>
      rw [groupsOf, ih hrest (List.cons_ne_nil _ _)]
      exact if_pos (hx.trans (hrest y List.mem_cons_self).symm)

theorem turnGroup_ltr {els : List (Nat × Placement)} (h : ∀ x ∈ els, x.2.dir = .ltr) : turnGroup els = els := by
  cases els with
  | nil => rfl
  | cons x rest => exact if_neg (by rw [h x List.mem_cons_self]; decide)

theorem turnGroup_rtl {els : List (Nat × Placement)} (h : ∀ x ∈ els, x.2.dir = .rtl) : turnGroup els = els.reverse := by
  cases els with
  | nil => rfl
  | cons x rest => exact if_pos (h x List.mem_cons_self)

/-- Settles O49. -/
theorem visualOrderKeepsEveryElement : Obligations.VisualOrderKeepsEveryElement := by
  intro para els
  refine ⟨?_, fun hp h => ?_, fun hp h => ?_⟩
  · have hgroups : ((groupsOf els).map turnGroup).flatten.Perm els := (flatten_turned_perm _).trans (.of_eq (groupsOf_flatten els))
    rw [visualOrder_eq]
    split
    · exact ((List.reverse_perm _).flatten).trans hgroups
    · exact hgroups
  · rw [visualOrder_eq, hp, if_neg (by decide)]
    by_cases hne : els = []
    · rw [hne]
      rfl
    · rw [groupsOf_uniform h hne, List.map_singleton, List.flatten_singleton, turnGroup_ltr h]
  · rw [visualOrder_eq, hp, if_pos rfl]
    by_cases hne : els = []
    · rw [hne]
      rfl
    · rw [groupsOf_uniform h hne, List.map_singleton, List.reverse_singleton, List.flatten_singleton, turnGroup_rtl h]

end Sys2Proof.Machine
end


section
/-! PROOF. The arbiter's choice: a channel served, and the composition that begins (R75 to R77). -/

namespace Sys2Proof.Machine

/-! ### The choice (R75, R138) -/

theorem roundRobin_eq (last : Fin 4) : roundRobin last = fours.map (fun k => last + 1 + k) := by
  revert last
  decide

theorem fours_split (k : Fin 4) : fours = fours.take k ++ k :: fours.drop (k + 1) ∧ ∀ j ∈ fours.take k, j < k := by
  revert k
  decide

/-- R75: the first PENDING channel in round-robin order is the one chosen. -/
theorem State.nextServed_first {s : State} {k : Fin 4} (hp : s.ch[s.ce.lastServed + 1 + k].state = .pending)
    (hfirst : ∀ j : Fin 4, j < k → s.ch[s.ce.lastServed + 1 + j].state ≠ .pending) :
    s.nextServed = some (s.ce.lastServed + 1 + k) := by
  obtain ⟨hsplit, hlt⟩ := fours_split k
  unfold State.nextServed
  rw [roundRobin_eq, hsplit, List.map_append, List.map_cons]
  refine (find_first (p := fun c : Fin 4 => s.ch[c].state == .pending) (fun x hx => ?_) (beq_iff_eq.2 hp)).1
  obtain ⟨j, hj, rfl⟩ := List.mem_map.1 hx
  exact beq_eq_false_iff_ne.2 (hfirst j (hlt j hj))

theorem sixteens_nodup : sixteens.Nodup := by decide

/-- R138: with fewer than 16 slots taken there is a FREE one. -/
theorem State.freeSlot_exists {s : State} (h : s.slotsTaken.length < 16) : ∃ slot, s.freeSlot = some slot ∧ slot ∉ s.slotsTaken := by
  cases hf : s.freeSlot with
  | some slot =>
    have hslot := List.find?_some hf
    exact ⟨slot, rfl, of_decide_eq_true hslot⟩
  | none =>
    have hall : sixteens ⊆ s.slotsTaken := fun n hn => by simpa using List.find?_eq_none.1 hf n hn
    have hlen := (List.subperm_of_subset sixteens_nodup hall).length_le
    have hsixteen : sixteens.length = 16 := rfl
    omega

theorem execArbiterChoice_serves {s : State} {c : Fin 4} {slot : Fin 16} (h : s.ce.comp = none) (hc : s.nextServed = some c)
    (hs : s.freeSlot = some slot) : execArbiterChoice s = .next (s.serve c slot).settle := by
  unfold execArbiterChoice
  rw [h, hc, hs]

/-! ### The composition under way (R27, R77) -/

theorem readUnit_tag {d : Fdm} {fb : Nat} {w : Working} {run : Nat} {b : BufUnit} {r : ReadUnit}
    (h : readUnit d fb w run b = .ok r) : r.tag = b.tag := by
  unfold readUnit at h
  dsimp only at h
  split at h
  case h_8 =>
    split at h
    · cases h
    · cases h
      rfl
  all_goals
    cases h
    rfl

/-- A unit read, as it stood in the buffer. -/
def ReadUnit.source (r : ReadUnit) : BufUnit := ⟨r.unit, r.tag⟩

/-- The composition that began as `c` at `s` is under way at `t`: it has kept what it fixed, has read the buffer's units in order, and
holds no reference as long as it has read none. -/
structure State.Underway (s : State) (c : Composition) (t : State) (now : Composition) : Prop where
  comp : t.ce.comp = some now
  channel : now.channel = c.channel
  slot : now.slot = c.slot
  span : now.spanLen = c.spanLen
  ctx : now.ctx = c.ctx
  carry : now.carry = c.carry
  discard : now.discard = c.discard
  ch : t.ch = s.ch
  units : now.read.map ReadUnit.source <+: s.ch[c.channel].buffer
  unread : now.read = [] → now.used = [] ∧ t.fdm = s.fdm

theorem prefix_snoc {α : Type} {l m : List α} {a : α} (h : l <+: m) (ha : m[l.length]? = some a) : l ++ [a] <+: m := by
  obtain ⟨rest, rfl⟩ := h
  rw [List.getElem?_append_right (le_refl _), Nat.sub_self] at ha
  cases rest with
  | nil => cases ha
  | cons b rest =>
    obtain rfl : b = a := Option.some.inj ha
    exact ⟨rest, by rw [List.append_assoc, List.singleton_append]⟩

/-- R40: the next unit read is the next one of the buffer. -/
theorem State.Underway.reads {s t : State} {c now : Composition} (h : s.Underway c t now) {b : BufUnit} (hb : t.nextUnit now = some b)
    {d : Fdm} {r : ReadUnit} (hr : readUnit d now.ctx.fallback now.work now.run b = .ok r) :
    (now.take r).read.map ReadUnit.source <+: s.ch[c.channel].buffer := by
  have hat : s.ch[c.channel].buffer[(now.read.map ReadUnit.source).length]? = some b := by
    unfold State.nextUnit at hb
    split at hb
    · rw [h.ch] at hb
      have hc : s.ch[now.channel] = s.ch[c.channel] := congrArg (fun k : Fin 4 => s.ch[k]) h.channel
      rw [List.length_map, ← hc]
      exact hb
    · cases hb
  have hsource : r.source = b := by
    unfold ReadUnit.source
    rw [readUnit_unit hr, readUnit_tag hr]
  rw [Composition.take_read, List.map_append, List.map_singleton, hsource]
  exact prefix_snoc h.units hat

/-- One act of the engine keeps a composition under way. -/
theorem State.Underway.step {s t u : State} {c now : Composition} (h : s.Underway c t now) (hr : t.readOne = some u) :
    ∃ next, s.Underway c u next := by
  obtain ⟨x, hx, -, -, ⟨d, subst, -, -, rfl⟩ | ⟨b, r, -, hb, hru, hd⟩⟩ := t.readOne_cases hr
  · obtain rfl : x = now := Option.some.inj (hx.symm.trans h.comp)
    exact ⟨x.startFace d subst, rfl, h.channel, h.slot, h.span, h.ctx, h.carry, h.discard, h.ch, h.units, h.unread⟩
  · obtain rfl : x = now := Option.some.inj (hx.symm.trans h.comp)
    have hunits := h.reads hb hru
    have hread (y : Composition) (hy : y.read = x.read ++ [r]) : y.read ≠ [] := by simp [hy]
    obtain ⟨-, rfl⟩ | ⟨-, -, rfl⟩ := hd
    · exact ⟨x.take r, rfl, h.channel, h.slot, h.span, h.ctx, h.carry, h.discard, h.ch, hunits, fun hn => absurd hn (hread _ rfl)⟩
    · by_cases hp : r.work.drawn.pos ∈ (x.take r).used
      · rw [State.draw_held hp]
        exact ⟨x.take r, rfl, h.channel, h.slot, h.span, h.ctx, h.carry, h.discard, h.ch, hunits, fun hn => absurd hn (hread _ rfl)⟩
      · rw [State.draw_first hp]
        exact ⟨{ x.take r with used := (x.take r).used ++ [r.work.drawn.pos] }, rfl, h.channel, h.slot, h.span, h.ctx, h.carry, h.discard, h.ch,
          hunits, fun hn => absurd hn (hread _ rfl)⟩

theorem State.Underway.readNext {s t : State} {c now : Composition} (h : s.Underway c t now) : ∃ next, s.Underway c t.readNext next :=
  State.readNext_keeps (P := fun u => ∃ next, s.Underway c u next) (fun _ _ hu hr => hu.elim fun _ k => k.step hr) ⟨now, h⟩

/-- Settles O44. -/
theorem arbiterServesTheNextPendingChannel : Obligations.ArbiterServesTheNextPendingChannel := by
  intro s k hcomp hslots hp hfirst c
  obtain ⟨slot, hslot, hfree⟩ := State.freeSlot_exists hslots
  refine ⟨slot, hfree, ?_⟩
  intro begun
  have hexec : exec .arbiterChoice s = .next begun.readNext.settle :=
    execArbiterChoice_serves hcomp (State.nextServed_first hp hfirst) hslot
  have hbegun : begun.Underway (s.ch[c].begin c slot) begun (s.ch[c].begin c slot) :=
    ⟨rfl, rfl, rfl, rfl, rfl, rfl, rfl, rfl, List.nil_prefix, fun _ => ⟨rfl, rfl⟩⟩
  obtain ⟨now, h⟩ := hbegun.readNext
  have hframe := begun.readNext_frame
  have hce : begun.readNext.ce = { lastServed := c, comp := some now } := by
    rw [hframe, h.comp]
  have htouch := begun.readNext_touches
  have hcell : begun.ch[c] = { s.ch[c] with state := .composing } := setAt_same _ _ _
  have hbuffer : begun.ch[c].buffer = s.ch[c].buffer := by rw [hcell]
  refine ⟨hexec, _, now, hexec, hce, h.channel, h.slot, h.span, h.ctx, h.carry, h.discard, hbuffer ▸ h.units, h.unread, h.ch,
    htouch.ex (by decide), htouch.sq (by decide), htouch.fs (by decide), htouch.sa (by decide), htouch.store (by decide), htouch.time (by decide)⟩

end Sys2Proof.Machine
end


section
/-! PROOF. The endings of a composition: a line delivered (R62, R63, R98) and a composition abandoned (R79). -/

namespace Sys2Proof.Machine

/-! ### The join carry (R45) -/

theorem getLast_filter {α : Type} {p : α → Bool} {ls : List α} {l : α} :
    (ls.filter p).getLast? = some l ↔ p l = true ∧ ∃ before after, ls = before ++ l :: after ∧ ∀ m ∈ after, p m = false := by
  rw [List.getLast?_eq_head?_reverse, ← List.filter_reverse, List.head?_filter, List.find?_eq_some_iff_append]
  refine and_congr_right fun _ => ⟨?_, ?_⟩
  · rintro ⟨as, bs, h, has⟩
    refine ⟨bs.reverse, as.reverse, ?_, fun m hm => by simpa using has m (List.mem_reverse.1 hm)⟩
    rw [← List.reverse_reverse ls, h, List.reverse_append, List.reverse_cons, List.append_assoc, List.singleton_append]
  · rintro ⟨before, after, h, hafter⟩
    refine ⟨after.reverse, before.reverse, ?_, fun m hm => by simp [hafter m (List.mem_reverse.1 hm)]⟩
    rw [h, List.reverse_append, List.reverse_cons, List.append_assoc, List.singleton_append]

/-- R45: the last letter of the line that is not TRANSPARENT is DUAL. -/
def endsDual (ls : List Letter) (unit : Nat) : Prop :=
  ∃ before l after, ls = before ++ l :: after ∧ l.idx ≤ unit ∧ l.entry.cls = 2 ∧ ∀ m ∈ after, m.idx ≤ unit → m.entry.cls = 3

/-- R45: the line ends inside a run. -/
def endsInRun (c : Composition) (e : LineEnd) : Prop :=
  (∃ hyphen, e.kind = .brk hyphen) ∨ (e.kind = .forced ∧ ∃ a b, c.read[e.unit]? = some a ∧ c.read[e.unit + 1]? = some b ∧
    a.endsRun = false ∧ b.endsRun = false ∧ a.run = b.run)

/-- The model's test of a DUAL ending. -/
def lastDual (ls : List Letter) (unit : Nat) : Bool :=
  match (ls.filter (fun l => l.entry.cls != 3 && decide (l.idx ≤ unit))).getLast? with
  | some l => l.entry.cls == 2
  | none => false

theorem lastDual_iff (ls : List Letter) (unit : Nat) : lastDual ls unit = true ↔ endsDual ls unit := by
  unfold lastDual endsDual
  constructor
  · intro h
    split at h
    · next l hl =>
      obtain ⟨hp, before, after, hsplit, hafter⟩ := getLast_filter.1 hl
      simp only [Bool.and_eq_true, decide_eq_true_eq] at hp
      refine ⟨before, l, after, hsplit, hp.2, eq_of_beq h, fun m hm hle => ?_⟩
      simpa [hle] using hafter m hm
    · cases h
  · rintro ⟨before, l, after, hsplit, hle, hcls, hafter⟩
    rw [getLast_filter.2 ⟨by simp [hle, hcls], before, after, hsplit, fun m hm => ?_⟩]
    · exact beq_iff_eq.2 hcls
    · by_cases hm' : m.idx ≤ unit
      · simp [hafter m hm hm']
      · simp [hm']

/-- The model's test of an ending inside a run. -/
def inRun (c : Composition) (e : LineEnd) : Bool :=
  match e.kind with
  | .brk _ => true
  | .forced =>
    (match c.read[e.unit]?, c.read[e.unit + 1]? with
    | some a, some b => !a.endsRun && !b.endsRun && a.run == b.run
    | _, _ => false)
  | _ => false

theorem inRun_iff (c : Composition) (e : LineEnd) : inRun c e = true ↔ endsInRun c e := by
  unfold inRun endsInRun
  split
  · next h => simp [h]
  · next h =>
    rw [h]
    split
    · next a b ha hb => simp [ha, hb, and_assoc]
    · next hnot =>
      simp only [Bool.false_eq_true, false_iff]
      rintro (⟨_, hk⟩ | ⟨-, a, b, ha, hb, -⟩)
      · cases hk
      · exact hnot a b ha hb
  · next h1 h2 =>
    simp only [Bool.false_eq_true, false_iff]
    rintro (⟨hyphen, hk⟩ | ⟨hk, -⟩)
    · exact h1 hyphen hk
    · exact h2 hk

theorem carryAfter_eq (F : Fin 8 → Face) (c : Composition) (e : LineEnd) :
    carryAfter F c e = match c.read[e.unit]? with
      | some u => if inRun c e && lastDual (lettersOf F c.read) e.unit then some ⟨u.work.drawn.face, u.work.dir⟩ else none
      | none => none := rfl

/-- R45: the carry is set where the line ends inside a run after a DUAL character. -/
theorem carryAfter_set {F : Fin 8 → Face} {c : Composition} {e : LineEnd} {r : ReadUnit} (hr : c.read[e.unit]? = some r)
    (h1 : endsInRun c e) (h2 : endsDual (lettersOf F c.read) e.unit) : carryAfter F c e = some ⟨r.work.drawn.face, r.work.dir⟩ := by
  rw [carryAfter_eq, hr]
  exact if_pos (by rw [(inRun_iff c e).2 h1, (lastDual_iff _ _).2 h2]; rfl)

/-- R45: and cleared otherwise. -/
theorem carryAfter_cleared {F : Fin 8 → Face} {c : Composition} {e : LineEnd}
    (h : ¬ (endsInRun c e ∧ endsDual (lettersOf F c.read) e.unit)) : carryAfter F c e = none := by
  rw [carryAfter_eq]
  split
  · exact if_neg fun k => h (by rwa [Bool.and_eq_true, inRun_iff, lastDual_iff] at k)
  · rfl

/-! ### The channel after its line (R60 to R63, R98) -/

/-- R98: the line that a composition delivers. -/
def State.lineOf (c : Composition) (e : LineEnd) (s : State) : Line :=
  buildLine (c.setting s.metrics) c e s.ch[c.channel].next s.ch[c.channel].lineCounter s.ch[c.channel].consumed

/-- R60, R62: the channel after its line, the pending changes applied, its state not yet taken. -/
def State.lineTaken (c : Composition) (e : LineEnd) (s : State) : Channel :=
  (s.ch[c.channel].afterLine c e (s.lineOf c e).header (carryAfter s.metrics c e)).applyPending

/-- R98: the channel's state after its line. -/
def Channel.restated (y : Channel) : Channel := if y.holdReq then { y with state := .held .reach, holdReq := false } else y.retest

theorem Channel.restated_keeps (y : Channel) : ∃ st h, y.restated = { y with state := st, holdReq := h } := by
  unfold Channel.restated
  split
  · exact ⟨_, _, rfl⟩
  · exact ⟨_, y.holdReq, rfl⟩

theorem State.restate_eq (c : Fin 4) (s : State) :
    s.restate c = { s with
      ch := setAt s.ch c s.ch[c].restated,
      olu := if s.ch[c].holdReq then s.olu.post (heldNotice c .reach s.ch[c]) else s.olu } := by
  unfold State.restate Channel.restated
  split <;> rfl

theorem foldl_touch_eq (ps : List (Fin 8)) (d : Fdm) : ∃ v, ps.foldl Fdm.touch d = { d with recency := v } := by
  induction ps generalizing d with
  | nil => exact ⟨_, rfl⟩
  | cons p ps ih =>
    obtain ⟨v, hv⟩ := ih (d.touch p)
    exact ⟨v, hv⟩

theorem State.deliverLine_eq (c : Composition) (e : LineEnd) (s : State) :
    s.deliverLine c e = { s with
      ch := setAt s.ch c.channel (s.lineTaken c e).restated,
      ex := { s.ex with queued := s.ex.queued ++ [⟨c.slot, s.lineOf c e, 0⟩] },
      fdm := c.used.foldl Fdm.touch s.fdm, ce := { s.ce with comp := none },
      olu := if (s.lineTaken c e).holdReq then
          (s.olu.post (.lineSet (s.lineOf c e).header)).post (heldNotice c.channel .reach (s.lineTaken c e))
        else s.olu.post (.lineSet (s.lineOf c e).header) } := by
  have hcell := setAt_same s.ch c.channel (s.lineTaken c e)
  have hdone : s.deliverLine c e = State.restate c.channel { s with
      ch := setAt s.ch c.channel (s.lineTaken c e), ex := { s.ex with queued := s.ex.queued ++ [⟨c.slot, s.lineOf c e, 0⟩] },
      fdm := c.used.foldl Fdm.touch s.fdm, ce := { s.ce with comp := none },
      olu := s.olu.post (.lineSet (s.lineOf c e).header) } := rfl
  rw [hdone, State.restate_eq]
  dsimp only
  rw [hcell, setAt_twice]

theorem execLineDelivery_delivers {s : State} {c : Composition} {e : LineEnd} (hc : s.readOn.ce.comp = some c) (hd : c.discard = false)
    (he : c.decided s.readOn.metrics = some e) : execLineDelivery s = .next (s.readOn.deliverLine c e).settle := by
  unfold execLineDelivery
  dsimp only
  rw [hc]
  dsimp only
  rw [if_neg (by rw [hd]; decide), he]

theorem advance_eq (next leading : Nat) : advance next leading = min 4194303 (next + leading) := by
  unfold advance
  split <;> omega

/-- R60 to R63: what the channel holds after its line. -/
theorem State.lineTaken_eq (c : Composition) (e : LineEnd) (s : State) :
    s.lineTaken c e =
      let x := s.ch[c.channel]
      let w := (c.read[e.unit]?.map (·.work)).getD c.work
      { x with
        ctx := Context.writeAll { x.ctx with face := w.face, size := w.size, setw := w.setw, track := w.track, ligs := w.ligs } x.pendSet,
        pendSet := [], pendCol := none,
        runDir := match x.pendSet.find? (fun v => v.1 == .paraDir) with
          | some v => dirOf v.2.toNat
          | none => match e.kind with
            | .endPara _ => c.ctx.paraDir
            | _ => w.dir
        paraQuad := match e.kind with
          | .endPara q => q
          | _ => w.quad
        buffer := x.buffer.drop (e.unit + 1), top := x.pendCol.getD x.top, next := x.pendCol.getD (s.lineOf c e).header.baseline,
        lineCounter := if x.pendCol.isSome then 0 else x.lineCounter + 1, consumed := (s.lineOf c e).header.breakIndex,
        carry := carryAfter s.metrics c e } := Channel.applyPending_eq _

/-- Settles O45. -/
theorem lineDeliveryQueuesTheLine : Obligations.LineDeliveryQueuesTheLine := by
  intro s c e hc hd he u x
  have heq := u.deliverLine_eq c e
  have hy := u.lineTaken_eq c e
  obtain ⟨st, hr, hrestated⟩ := (u.lineTaken c e).restated_keeps
  have hcell : (u.deliverLine c e).settle.ch[c.channel] = (u.lineTaken c e).restated := by
    rw [State.settle_ch, heq]
    exact setAt_same _ _ _
  have hhold : (u.lineTaken c e).holdReq = x.holdReq := by rw [hy]
  obtain ⟨v, hv⟩ := foldl_touch_eq c.used u.fdm
  have hfdm : (u.deliverLine c e).settle.fdm = c.used.foldl Fdm.touch u.fdm := by rw [State.settle_fdm, heq]
  refine ⟨_, u.lineOf c e, execLineDelivery_delivers hc hd he, ?_, ?_, rfl, rfl, advance_eq _ _, rfl, rfl, rfl, rfl, rfl, ?_, ?_, ?_, ?_,
    ⟨?_, ?_, ?_⟩, ⟨fun r hread hrun hdual => ?_, fun hnot => ?_⟩, ?_, fun hn => ?_, fun hp => ⟨?_, ?_⟩, fun top hp => ⟨?_, ?_, ?_⟩,
    fun hh => ⟨?_, ?_⟩, fun hh => ⟨?_, ?_, ?_⟩, fun d hne => ?_, ?_, ?_, ?_, ?_⟩
  · rw [State.settle_ex, heq]
  · rw [State.settle_ce, heq]
  · rw [hcell, hrestated, hy]
  · rw [hcell, hrestated, hy]
  · rw [hcell, hrestated, hy]
  · rw [hcell, hrestated, hy]
  · rw [hcell, hrestated, hy]
  · exact (congrArg Channel.runDir (hcell.trans hrestated)).trans (congrArg Channel.runDir hy)
  · exact (congrArg Channel.paraQuad (hcell.trans hrestated)).trans (congrArg Channel.paraQuad hy)
  · rw [hcell, hrestated, hy]
    exact carryAfter_set hread hrun hdual
  · rw [hcell, hrestated, hy]
    exact carryAfter_cleared hnot
  · rw [hfdm, hv]
  · rw [hfdm, Fdm.foldl_touch _ _ hn]
  · rw [hcell, hrestated, hy]
    exact congrArg (fun o : Option Nat => o.getD _) hp
  · rw [hcell, hrestated, hy]
    exact if_neg (by rw [show u.ch[c.channel].pendCol = none from hp]; decide)
  · rw [hcell, hrestated, hy]
    exact congrArg (fun o : Option Nat => o.getD _) hp
  · rw [hcell, hrestated, hy]
    exact congrArg (fun o : Option Nat => o.getD _) hp
  · rw [hcell, hrestated, hy]
    exact if_pos (by rw [show u.ch[c.channel].pendCol = some top from hp]; rfl)
  · rw [hcell]
    refine (congrArg Channel.state (if_neg (by rw [hhold, hh]; decide))).trans ((Channel.testState_eq _).trans ?_)
    rw [hy]
  · rw [State.settle_olu, heq]
    exact congrArg Olu.transmit (if_neg (by rw [hhold, hh]; decide))
  · rw [hcell]
    exact congrArg Channel.state (if_pos (hhold.trans hh))
  · rw [hcell]
    exact congrArg Channel.holdReq (if_pos (hhold.trans hh))
  · rw [hcell, hrestated, State.settle_olu, heq]
    refine congrArg Olu.transmit ((if_pos (hhold.trans hh)).trans ?_)
    rw [hy]
    rfl
  · rw [State.settle_ch, heq]
    exact setAt_other _ _ _ _ hne
  · rw [State.settle_fs, heq]
  · rw [State.settle_sq, heq]
  · rw [State.settle_sa, heq]
  · rw [State.settle_store, heq]

end Sys2Proof.Machine
end


section
/-! PROOF. A composition abandoned (R79). -/

namespace Sys2Proof.Machine

/-- Notices of two blocks stand in either order, each block's own in theirs. -/
theorem State.postEither_cases (a b : List Notice) (s : State) :
    ∃ ns k, (ns = a ++ b ∨ ns = b ++ a) ∧ s.postEither a b = { s with olu := ns.foldl (fun o n => o.post n) s.olu, serial := k } := by
  unfold State.postEither
  split
  · exact ⟨a ++ b, s.serial, .inl rfl, State.postAll_eq _ s⟩
  · dsimp only
    split
    · exact ⟨a ++ b, s.serial + 1, .inl rfl, State.postAll_eq _ _⟩
    · exact ⟨b ++ a, s.serial + 1, .inr rfl, State.postAll_eq _ _⟩

/-- R79: an ending without a line that holds the channel. -/
theorem State.endWithout_holds {s : State} {c : Composition} {e : Ending} {why : HeldReason}
    (h : e.hold s.ch[c.channel].applyPending.holdReq = some why) :
    ∃ ns k, (ns = (s.fdm.decRefs c.used).2 ++ [heldNotice c.channel why s.ch[c.channel].applyPending] ∨
        ns = [heldNotice c.channel why s.ch[c.channel].applyPending] ++ (s.fdm.decRefs c.used).2) ∧
      s.endWithout c e = { s with
        ch := setAt s.ch c.channel { s.ch[c.channel].applyPending with state := .held why, holdReq := false },
        ce := { s.ce with comp := none }, fdm := (s.fdm.decRefs c.used).1, olu := ns.foldl (fun o n => o.post n) s.olu, serial := k } := by
  unfold State.endWithout
  dsimp only
  rw [h]
  exact State.postEither_cases _ _ _

/-- R79: an ending without a line that does not hold the channel. -/
theorem State.endWithout_frees {s : State} {c : Composition} {e : Ending} (h : e.hold s.ch[c.channel].applyPending.holdReq = none) :
    s.endWithout c e = { s with
      ch := setAt s.ch c.channel { s.ch[c.channel].applyPending with state := e.state s.ch[c.channel].applyPending },
      ce := { s.ce with comp := none }, fdm := e.request c.channel (s.fdm.decRefs c.used).1,
      olu := (s.fdm.decRefs c.used).2.foldl (fun o n => o.post n) s.olu } := by
  unfold State.endWithout
  dsimp only
  rw [h]
  dsimp only
  unfold State.postEither
  rw [if_pos (.inr rfl), List.append_nil]
  exact State.postAll_eq _ _

/-- R79: the ending of a composition that is abandoned, by the face test made now. -/
def State.abandoning (c : Composition) (s : State) : Ending :=
  match s.stopNow c with
  | some w => .stopped w
  | none => .forCopy

theorem execCompositionAbandon_abandons {s : State} {c : Composition} (hc : s.readOn.ce.comp = some c) (hd : c.discard = false)
    (he : c.decided s.readOn.metrics = none) :
    execCompositionAbandon s = .next (s.readOn.endWithout c (s.readOn.abandoning c)).settle := by
  unfold execCompositionAbandon State.abandoning
  dsimp only
  rw [hc]
  dsimp only
  rw [if_neg (by rw [hd]; decide), he]
  dsimp only
  cases s.readOn.stopNow c <;> rfl

/-- R30: the channel waits in the request of the face. -/
theorem Fdm.requestMount_waits (d : Fdm) (f : Fin 128) (c : Fin 4) : ∃ r ∈ (d.requestMount f c).requests, r.face = f ∧ c ∈ r.waiters := by
  unfold Fdm.requestMount
  split
  · next h =>
    obtain ⟨q, hq, hf⟩ := List.any_eq_true.1 h
    have hf := eq_of_beq hf
    by_cases hw : c ∈ q.waiters
    · exact ⟨q, List.mem_map.2 ⟨q, hq, if_neg fun k => k.2 hw⟩, hf, hw⟩
    · exact ⟨{ q with waiters := q.waiters ++ [c] }, List.mem_map.2 ⟨q, hq, if_pos ⟨hf, hw⟩⟩, hf, List.mem_append_right _ (List.mem_singleton_self c)⟩
  · exact ⟨⟨f, [c], false⟩, List.mem_append_right _ (List.mem_singleton_self _), rfl, List.mem_singleton_self c⟩

/-- R79: what every abandonment keeps and clears: its channel's state is `st` under the hold request `hr`, the mount unit is `d`, and the
notices posted are `ns`. -/
structure State.Abandoned (c : Composition) (s t : State) (st : ChannelState) (hr : Bool) (d : Fdm) (ns : List Notice) : Prop where
  ch : t.ch = setAt s.ch c.channel { s.ch[c.channel].applyPending with state := st, holdReq := hr }
  ce : t.ce = { s.ce with comp := none }
  fdm : t.fdm = d
  olu : t.olu = (ns.foldl (fun o n => o.post n) s.olu).transmit
  rest : Touches [.olu, .fdm, .ch, .ce] s t

theorem State.abandoned_holds {s : State} {c : Composition} {e : Ending} {why : HeldReason}
    (h : e.hold s.ch[c.channel].applyPending.holdReq = some why) :
    ∃ ns, (ns = (s.fdm.decRefs c.used).2 ++ [heldNotice c.channel why s.ch[c.channel].applyPending] ∨
        ns = [heldNotice c.channel why s.ch[c.channel].applyPending] ++ (s.fdm.decRefs c.used).2) ∧
      State.Abandoned c s (s.endWithout c e).settle (.held why) false (s.fdm.decRefs c.used).1 ns := by
  obtain ⟨ns, k, hns, heq⟩ := State.endWithout_holds h
  refine ⟨ns, hns, ?_⟩
  rw [heq]
  refine ⟨rfl, rfl, rfl, rfl, ?_⟩
  constructor <;> simp

theorem State.abandoned_frees {s : State} {c : Composition} {e : Ending} (h : e.hold s.ch[c.channel].applyPending.holdReq = none) :
    State.Abandoned c s (s.endWithout c e).settle (e.state s.ch[c.channel].applyPending) s.ch[c.channel].applyPending.holdReq
      (e.request c.channel (s.fdm.decRefs c.used).1) (s.fdm.decRefs c.used).2 := by
  rw [State.endWithout_frees h]
  refine ⟨rfl, rfl, rfl, rfl, ?_⟩
  constructor <;> simp

/-- R79: the hold that an abandonment puts the channel under. -/
theorem State.abandoning_hold (c : Composition) (s : State) (holdReq : Bool) :
    (s.abandoning c).hold holdReq =
      if holdReq then some .reach else if s.stopNow c = some .face then some .face else none := by
  unfold Ending.hold State.abandoning
  cases holdReq
  · cases hs : s.stopNow c with
    | none => rfl
    | some w => cases w <;> rfl
  · rfl

/-- R79: the channel after an abandonment. -/
theorem State.Abandoned.cell {c : Composition} {s t : State} {st : ChannelState} {hr : Bool} {d : Fdm} {ns : List Notice}
    (h : State.Abandoned c s t st hr d ns) :
    t.ch[c.channel] = { s.ch[c.channel].applyPending with state := st, holdReq := hr } := by
  rw [h.ch]
  exact setAt_same _ _ _

theorem State.abandoning_stopped {c : Composition} {s : State} {w : Stop} (h : s.stopNow c = some w) : s.abandoning c = .stopped w := by
  unfold State.abandoning
  rw [h]

theorem State.abandoning_forCopy {c : Composition} {s : State} (h : s.stopNow c = none) : s.abandoning c = .forCopy := by
  unfold State.abandoning
  rw [h]

/-- Settles O46. -/
theorem abandonmentLeavesTheCopy : Obligations.AbandonmentLeavesTheCopy := by
  intro s c hc hd he u x
  have hexec := execCompositionAbandon_abandons hc hd he
  have hpend := x.applyPending_eq
  have hreq : x.applyPending.holdReq = x.holdReq := by rw [hpend]
  have hhold := u.abandoning_hold c x.applyPending.holdReq
  rw [hreq] at hhold
  have reach (h : x.holdReq = true) : (u.abandoning c).hold x.applyPending.holdReq = some .reach := by
    rw [hreq, hhold, if_pos h]
  have face (h : x.holdReq = false) (hs : u.stopNow c = some .face) : (u.abandoning c).hold x.applyPending.holdReq = some .face := by
    rw [hreq, hhold, if_neg (by rw [h]; decide), if_pos hs]
  have free (h : x.holdReq = false) (hs : u.stopNow c ≠ some .face) : (u.abandoning c).hold x.applyPending.holdReq = none := by
    rw [hreq, hhold, if_neg (by rw [h]; decide), if_neg hs]
  have abandoned : ∃ st hr d ns, State.Abandoned c u (u.endWithout c (u.abandoning c)).settle st hr d ns := by
    cases hh : (u.abandoning c).hold x.applyPending.holdReq with
    | some why =>
      obtain ⟨ns, -, k⟩ := State.abandoned_holds hh
      exact ⟨_, _, _, _, k⟩
    | none => exact ⟨_, _, _, _, State.abandoned_frees hh⟩
  obtain ⟨st, hr, d, ns, k⟩ := abandoned
  have hcell := k.cell
  rw [Channel.applyPending_eq] at hcell
  refine ⟨_, hexec, k.ce, ?_, ?_, ?_, ?_, ?_, ?_, fun h => ?_, fun h => ⟨fun f hs => ?_, fun hs => ?_, fun hs => ?_⟩,
    ⟨fun h => ?_, fun h => ⟨fun f hs => ?_, fun hs => ?_⟩, fun n hn => Fdm.decRefs_notices hn, fun p hp => (Fdm.decRefs_pos p _ _).2 hp,
      fun hn p hp => ?_⟩, fun d hne => ?_, k.rest.ex (by decide), k.rest.fs (by decide), k.rest.sq (by decide), k.rest.sa (by decide),
    k.rest.store (by decide)⟩
  · rw [hcell]
  · rw [hcell]
  · rw [hcell]
  · rw [hcell]
  · rw [hcell]
  · rw [hcell]
  · obtain ⟨ns, -, k⟩ := State.abandoned_holds (reach h)
    rw [k.cell]
    exact ⟨rfl, rfl⟩
  · have k := State.abandoned_frees (free h (fun k => nomatch hs.symm.trans k))
    rw [State.abandoning_stopped hs] at k ⊢
    rw [k.cell, k.fdm]
    exact ⟨rfl, Fdm.requestMount_waits _ f c.channel⟩
  · obtain ⟨ns, -, k⟩ := State.abandoned_holds (face h hs)
    rw [k.cell]
  · have k := State.abandoned_frees (free h (fun k => nomatch hs.symm.trans k))
    rw [State.abandoning_forCopy hs] at k ⊢
    rw [k.cell]
    show (if 4096 ≤ x.applyPending.buffer.length then ChannelState.pending else .idle) = _
    rw [hpend]
  · have hwhy : (u.abandoning c).hold x.applyPending.holdReq = some (if x.holdReq then .reach else .face) := by
      by_cases hr : x.holdReq = true
      · rw [reach hr, if_pos hr]
      · rw [face (by simpa using hr) (h.resolve_left hr), if_neg hr]
    obtain ⟨ns, hns, k⟩ := State.abandoned_holds hwhy
    have hcounter : x.applyPending.lineCounter = (u.endWithout c (u.abandoning c)).settle.ch[c.channel].lineCounter := by rw [k.cell]
    have hconsumed : x.applyPending.consumed = x.consumed := by rw [hpend]
    have hheld : heldNotice c.channel (if x.holdReq then .reach else .face) x.applyPending =
        .channelHeld c.channel (if x.holdReq then .reach else .face) x.consumed
          (u.endWithout c (u.abandoning c)).settle.ch[c.channel].lineCounter := by
      rw [← hcounter, ← hconsumed]
      rfl
    obtain rfl | rfl := hns
    · exact ⟨k.fdm, .inl (hheld ▸ k.olu)⟩
    · exact ⟨k.fdm, .inr (hheld ▸ k.olu)⟩
  · have k := State.abandoned_frees (free h (fun k => nomatch hs.symm.trans k))
    rw [State.abandoning_stopped hs] at k ⊢
    exact ⟨k.fdm, k.olu⟩
  · have k := State.abandoned_frees (free h (fun k => nomatch hs.symm.trans k))
    rw [State.abandoning_forCopy hs] at k ⊢
    exact ⟨k.fdm, k.olu⟩
  · rw [(Fdm.decRefs_pos p _ _).1, List.count_eq_one_of_mem hn hp]
  · rw [k.ch]
    exact setAt_other _ _ _ _ hne

end Sys2Proof.Machine
end
